-- ==== Sys2Proof/Word.lean ====
section
/-!
DEFINITION. The plain types every file shares: a byte, a register word, and the sparse table in which the model keeps
everything the device indexes (memory bytes, registers, fences, queue contexts, cores, ports).
-/
namespace Sys2Proof

/-- A byte (R7). -/
abbrev Byte := BitVec 8

/-- A register, or one FP32 or INT32 lane (R9, R140). -/
abbrev Word := BitVec 32

/-- A sparse table: keys strictly rising, and no entry equal to what an unlisted key reads as. -/
abbrev Tbl (α : Type) := List (Nat × α)

end Sys2Proof
end

