-- ==== Sys2Proof/Syntax.lean ====
section
/-!
DEFINITION. The commands of the DN-824 as a block: one constructor of `Instr` for each row of spec/opcode_table.json.
A row that is one of the 64-byte commands of R306 names the command in flight it runs (`cmd`); a timer row names the TCLK
timestamp at which it falls (`t`); a register access names the function it comes through (`fn`: 0 the physical function,
n + 1 virtual function n).
-/
namespace Sys2Proof

/-- What the hardware checks of a piece of work found (R334, R335): sound, one mismatch that the repeat cleared, a second
mismatch of the unit, or a parity error of a transfer on datapath `id`, with whether its repeat failed as well. -/
inductive Check where
  | ok | transient | permanent
  | path (id : Nat) (again : Bool)
  deriving DecidableEq, Repr

/-- A fault that meets the pass in a core's arrays (R86, R126, R334, R338). `array` names the array it is in, `k` a logical
reduction index of the stationary tile, `row` a row and `col` a column of the pass in that array, and `delta` what it adds. -/
inductive PassFault where
  /-- A group sum changed while it forms. -/
  | sum (array row col group : Nat) (delta : Int)
  /-- A stationary weight changed in its cell after the load. -/
  | weight (array k col : Nat) (delta : Int)
  /-- An entry of the checksum column. -/
  | column (array k : Nat) (delta : Int)
  /-- A row checksum of the generator at the left edge. -/
  | generator (array k : Nat) (delta : Int)
  /-- A residue or parity error beside the checksums, with the value expected and the value observed. -/
  | side (array : Nat) (want got : BitVec 32)
  /-- An expander lane that delivers other bytes than its block codes. -/
  | lane (array lane : Nat)
  /-- An uncorrectable word of the weight or activation buffer, at a local offset. -/
  | refetch (off : Nat)
  /-- A parity error of a transfer on a datapath, and whether its repeat failed. -/
  | path (id : Nat) (again : Bool)
  deriving DecidableEq, Repr

/-- What a memory controller's patrol found in a word (R213, R215). -/
inductive WordState where
  | sound | single | uncorrectable
  deriving DecidableEq, Repr

/-- A fault that meets the work of an ATTEND_PREFILL, in the order in which the faults come (R196, R335, R338), with whether the
repeat failed too: in a pass of an array, in an instruction of the vector engine, of a transfer on a datapath, or in a word loaded
into a weight or activation buffer, which is loaded again. -/
inductive PrefillFault where
  | array (a : Nat) (again : Bool)
  | vector (again : Bool)
  | path (id : Nat) (again : Bool)
  | refetch (off : Nat)
  deriving DecidableEq, Repr

/-- What one pattern of an array's self-test ends with (R340): whether its check under R86 held, and the FP32 accumulators, row by row
of 128 columns. -/
structure PatternRun where
  checked : Bool := true
  accs    : List Nat := []
  deriving DecidableEq, Repr, Inhabited

/-- A unit of a core that can leave service (R335). -/
inductive CoreUnit where
  | array (a : Nat) | vector | attention | dma
  deriving DecidableEq, Repr

/-- A vector instruction of format A, or of format B when `imm` holds its broadcast operand (R144), on core `core`. -/
structure VA where
  core : Nat
  mask : Nat := 0
  zm   : Bool := false
  int  : Bool := false
  vd   : Nat := 0
  va   : Nat := 0
  vb   : Nat := 0
  vc   : Nat := 0
  imm  : Option Word := none
  chk  : Check := .ok
  deriving DecidableEq, Repr

/-- A vector instruction of format L (R144). `vr` is VD of a load and VS of a store. -/
structure VL where
  core  : Nat
  mask  : Nat := 0
  zm    : Bool := false
  int   : Bool := false
  vr    : Nat := 0
  sbase : Nat := 0
  vidx  : Nat := 0
  glob  : Bool := false
  rtz   : Bool := false
  ieee  : Bool := false
  fmt   : BitVec 16 := 0
  off   : BitVec 16 := 0
  chk   : Check := .ok
  deriving DecidableEq, Repr

/-- An instruction of format S (R144). -/
structure VS where
  core : Nat
  mask : Nat := 0
  zm   : Bool := false
  sd   : Nat := 0
  sa   : Nat := 0
  sb   : Nat := 0
  cond : Nat := 0
  imm  : Word := 0
  chk  : Check := .ok
  deriving DecidableEq, Repr

/-- The fields of a Stobel header (R369). -/
structure Hdr where
  version  : Nat := 1
  type     : Nat := 0
  last     : Bool := false
  ece      : Bool := false
  ackValid : Bool := false
  rsvd     : Bool := false
  srcEpoch : BitVec 8 := 0
  dstEpoch : BitVec 8 := 0
  jobId    : BitVec 16 := 0
  jobEpoch : BitVec 16 := 0
  credits  : Nat := 0
  psn      : BitVec 32 := 0
  ackPsn   : BitVec 32 := 0
  srcEp    : Nat := 0
  dstEp    : Nat := 0
  msgSeq   : BitVec 32 := 0
  seg      : Nat := 0
  segBytes : Nat := 0
  msgBytes : Nat := 0
  key      : BitVec 32 := 0
  offset   : BitVec 64 := 0
  deriving DecidableEq, Repr

/-- A received frame that passed MACsec, with its IP congestion mark (R368, R379). -/
structure Frame where
  hdr     : Hdr
  payload : List Byte := []
  ce      : Bool := false
  deriving DecidableEq, Repr

/-- One sensor sample (R466): temperatures as raw signed 16-bit eighths of a degree, powers in tenths of a watt. -/
structure Sensors where
  tj     : BitVec 16 := 0
  slices : List (BitVec 16) := []
  hbmT : List (BitVec 16) := []
  total  : Nat := 0
  core   : Nat := 0
  hbm    : Nat := 0
  deriving DecidableEq, Repr

/-- The commands of the block. Each constructor is one row of the opcode table, in the table's order; the rule cited is
the row's. -/
inductive Instr where
  /-- SUBMISSION_DOORBELL (R263). -/
  | submissionDoorbell (fn : Nat) (off : Nat) (size : Nat) (val : BitVec 64)
  /-- COMPLETION_HEAD_DOORBELL (R275). -/
  | completionHeadDoorbell (fn : Nat) (cq : Nat) (val : BitVec 64)
  /-- SCHEDULER_VISIT (R269); `parity` says that the use finds the partition's scheduler state at fault (R334, R343). -/
  | schedulerVisit (ctxLost : Bool) (parity : Bool)
  /-- RING_FETCH_COMPLETION (R261). -/
  | ringFetchCompletion (queue : Nat) (ok1 : Bool) (ok2 : Bool) (slots : List (BitVec 512))
  /-- HOST_READ_COMPLETION (R329). -/
  | hostReadCompletion (fn : Nat) (tag : Nat) (ok : Bool) (data : List (BitVec 8))
  /-- COMMAND_DISPATCH (R285). -/
  | commandDispatch (queue : Nat)
  /-- COMMAND_START (R295); `parity` names a core whose sequencer state the use finds at fault (R334, R343). -/
  | commandStart (cmd : Nat) (parity : Option Nat)
  /-- WAIT_TIMEOUT (R293). -/
  | waitTimeout (cmd : Nat) (t : Nat)
  /-- CQ_MOD_TIME_EXPIRY (R276). -/
  | cqModTimeExpiry (cq : Nat) (t : Nat)
  /-- NOP (R306). -/
  | nop (cmd : Nat)
  /-- FENCE_WAIT (R290). -/
  | fenceWait (cmd : Nat)
  /-- FENCE_SIGNAL (R290). -/
  | fenceSignal (cmd : Nat)
  /-- TIMESTAMP (R445). -/
  | timestamp (cmd : Nat)
  /-- STEP_BEGIN (R312). -/
  | stepBegin (cmd : Nat)
  /-- STEP_END (R313). -/
  | stepEnd (cmd : Nat)
  /-- STEP_COMMIT (R181). -/
  | stepCommit (part : Nat)
  /-- STEP_END_WAIT_TIMEOUT (R313). -/
  | stepEndWaitTimeout (part : Nat) (t : Nat)
  /-- DMA_COPY (R301). -/
  | dmaCopy (cmd : Nat) (chk : Check)
  /-- DMA_CONVERT (R303). -/
  | dmaConvert (cmd : Nat) (chk : Check)
  /-- MEM_FILL (R301). -/
  | memFill (cmd : Nat) (chk : Check)
  /-- CACHE_WRITEBACK (R228). -/
  | cacheWriteback (cmd : Nat)
  /-- CACHE_INVALIDATE (R228). -/
  | cacheInvalidate (cmd : Nat)
  /-- FABRIC_MATMUL (R94). -/
  | fabricMatmul (cmd : Nat)
  /-- GROUPED_MATMUL (R135). -/
  | groupedMatmul (cmd : Nat)
  /-- TILE_REQUEST (R92), of a chunk where `chunk` says so (R192); `parity` says that the use finds the dispenser at fault (R334,
  R343). -/
  | tileRequest (core : Nat) (chunk : Bool) (parity : Bool)
  /-- TILE_STEAL (R93), of a chunk where `chunk` says so (R192). -/
  | tileSteal (core : Nat) (victim : Nat) (chunk : Bool)
  /-- PASS_CHECK (R86). -/
  | passCheck (core : Nat) (faults : List PassFault)
  /-- PASS_SPLIT (R84). -/
  | passSplit (core : Nat) (slots : Nat)
  /-- ARRAY_FENCE_TAKES_EFFECT (R102). -/
  | arrayFenceTakesEffect (core : Nat)
  /-- DECODE_SLOT_FILL (R118). -/
  | decodeSlotFill (core : Nat) (table : Nat)
  /-- VECTOR_RUN (R159). -/
  | vectorRun (cmd : Nat)
  /-- ROTATE (R303). -/
  | rotate (cmd : Nat) (chk : Check)
  /-- MOE_ROUTE (R134). -/
  | moeRoute (cmd : Nat) (chk : Check)
  /-- ATTEND_PREFILL (R196). -/
  | attendPrefill (cmd : Nat) (faults : List PrefillFault)
  /-- ATTEND_DECODE (R192). -/
  | attendDecode (cmd : Nat)
  /-- ATTENTION_CHUNK_DONE (R194); `refetch` lists the offsets of words of KV staging found uncorrectable and loaded again (R338). -/
  | attentionChunkDone (core : Nat) (chk : Check) (refetch : List Nat)
  /-- KV_APPEND (R188). -/
  | kvAppend (cmd : Nat) (chk : Check)
  /-- COMPRESS (R122). -/
  | compress (cmd : Nat) (chk : Check)
  /-- TABLE_LOAD (R120). -/
  | tableLoad (cmd : Nat)
  /-- TABLE_LOAD_APPLY (R120). -/
  | tableLoadApply (cmd : Nat)
  /-- SEQ_CREATE (R173). -/
  | seqCreate (cmd : Nat)
  /-- SEQ_FORK (R175). -/
  | seqFork (cmd : Nat)
  /-- SEQ_FREE (R174). -/
  | seqFree (cmd : Nat)
  /-- KV_RESERVE (R179). -/
  | kvReserve (cmd : Nat)
  /-- PREFIX_LOOKUP (R184). -/
  | prefixLookup (cmd : Nat)
  /-- PREFIX_INSERT (R185). -/
  | prefixInsert (cmd : Nat)
  /-- MSG_SEND (R382). -/
  | msgSend (cmd : Nat)
  /-- RECV_POST_BUFFER (R376). -/
  | recvPostBuffer (cmd : Nat)
  /-- RECV_POST_REGION (R376). -/
  | recvPostRegion (cmd : Nat)
  /-- RECV_POST_FENCES (R376). -/
  | recvPostFences (cmd : Nat)
  /-- RECV_POST_REMOVE (R376). -/
  | recvPostRemove (cmd : Nat)
  /-- ALL_REDUCE (R387). -/
  | allReduce (cmd : Nat)
  /-- ALL_GATHER (R387). -/
  | allGather (cmd : Nat)
  /-- REDUCE_SCATTER (R387). -/
  | reduceScatter (cmd : Nat)
  /-- ALL_TO_ALL (R387). -/
  | allToAll (cmd : Nat)
  /-- JOB_OPEN (R383). -/
  | jobOpen (cmd : Nat)
  /-- JOB_CLOSE (R383). -/
  | jobClose (cmd : Nat)
  /-- QUEUE_CREATE (R264). -/
  | queueCreate (cmd : Nat)
  /-- QUEUE_RESUME (R267). -/
  | queueResume (cmd : Nat)
  /-- QUEUE_DESTROY (R267). -/
  | queueDestroy (cmd : Nat)
  /-- QUEUE_DESTROY_DONE (R267). -/
  | queueDestroyDone (cmd : Nat)
  /-- CONFIGURE (R319). -/
  | configure (cmd : Nat) (rates : BitVec 16)
  /-- POOL_DEFINE (R165). -/
  | poolDefine (cmd : Nat)
  /-- POOL_REMOVE (R165). -/
  | poolRemove (cmd : Nat)
  /-- PARTITION_RELEASE (R327). -/
  | partitionRelease (cmd : Nat)
  /-- DRAIN_OVERRUN (R330). -/
  | drainOverrun (part : Nat) (t : Nat)
  /-- DRAIN_END (R331). -/
  | drainEnd (part : Nat) (t : Nat)
  /-- RELEASE_SCRUB_DONE (R331). -/
  | releaseScrubDone (part : Nat) (t : Nat)
  /-- MMU_MAP (R221). -/
  | mmuMap (cmd : Nat)
  /-- MMU_UNMAP (R222). -/
  | mmuUnmap (cmd : Nat)
  /-- PROGRAM_LOAD (R156). -/
  | programLoad (cmd : Nat)
  /-- WEIGHTS_LOAD_SEALED (R415). -/
  | weightsLoadSealed (cmd : Nat)
  /-- KEY_IMPORT (R410). -/
  | keyImport (cmd : Nat)
  /-- COUNTER_CONFIG (R447). -/
  | counterConfig (cmd : Nat)
  /-- TRACE_CONFIG (R448). -/
  | traceConfig (cmd : Nat)
  /-- TENSOR_WATCH (R454). -/
  | tensorWatch (cmd : Nat)
  /-- WATCH_RECORD (R455). -/
  | watchRecord (part : Nat) (slot : Nat)
  /-- SNAPSHOT (R426). -/
  | snapshot (cmd : Nat)
  /-- CONTEXT_SAVE (R323). -/
  | contextSave (cmd : Nat)
  /-- CONTEXT_RESTORE (R325). -/
  | contextRestore (cmd : Nat)
  /-- CONTEXT_HOLD_REACHED (R323). -/
  | contextHoldReached (part : Nat)
  /-- RESET_COMPUTE (R306). -/
  | resetCompute (cmd : Nat)
  /-- COMPUTE_RESET (R348). -/
  | computeReset (part : Nat) (kvDone : Bool)
  /-- ADD (R145). -/
  | vAdd (v : VA)
  /-- SUB (R145). -/
  | vSub (v : VA)
  /-- MUL (R145). -/
  | vMul (v : VA)
  /-- FMA (R145). -/
  | vFma (v : VA)
  /-- MIN (R146). -/
  | vMin (v : VA)
  /-- MAX (R146). -/
  | vMax (v : VA)
  /-- CMPEQ (R145). -/
  | vCmpeq (v : VA)
  /-- CMPLT (R145). -/
  | vCmplt (v : VA)
  /-- CMPLE (R145). -/
  | vCmple (v : VA)
  /-- CMPUN (R145). -/
  | vCmpun (v : VA)
  /-- SEL (R145). -/
  | vSel (v : VA)
  /-- AND (R145). -/
  | vAnd (v : VA)
  /-- OR (R145). -/
  | vOr (v : VA)
  /-- XOR (R145). -/
  | vXor (v : VA)
  /-- SHL (R145). -/
  | vShl (v : VA)
  /-- SHR (R145). -/
  | vShr (v : VA)
  /-- SRA (R145). -/
  | vSra (v : VA)
  /-- CVTIF (R145). -/
  | vCvtif (v : VA)
  /-- CVTFI (R146). -/
  | vCvtfi (v : VA)
  /-- EXP2 (R147). -/
  | vExp2 (v : VA)
  /-- LOG2 (R147). -/
  | vLog2 (v : VA)
  /-- RCP (R147). -/
  | vRcp (v : VA)
  /-- RSQRT (R147). -/
  | vRsqrt (v : VA)
  /-- REDSUM (R148). -/
  | vRedsum (v : VA)
  /-- REDSUMO (R148). -/
  | vRedsumo (v : VA)
  /-- REDMAX (R148). -/
  | vRedmax (v : VA)
  /-- REDMIN (R148). -/
  | vRedmin (v : VA)
  /-- SCAN (R148). -/
  | vScan (v : VA)
  /-- PERM (R145). -/
  | vPerm (v : VA)
  /-- IDX (R145). -/
  | vIdx (v : VA)
  /-- BCAST (R145). -/
  | vBcast (v : VA)
  /-- EXTRACT (R145). -/
  | vExtract (v : VA)
  /-- MAND (R145). -/
  | vMand (v : VA)
  /-- MOR (R145). -/
  | vMor (v : VA)
  /-- MNOT (R145). -/
  | vMnot (v : VA)
  /-- MPOP (R145). -/
  | vMpop (v : VA)
  /-- LD (R151). -/
  | vLd (v : VL)
  /-- ST (R151). -/
  | vSt (v : VL)
  /-- LDG (R145). -/
  | vLdg (v : VL)
  /-- STS (R149). -/
  | vSts (v : VL)
  /-- ROT (R158). -/
  | vRot (v : VS)
  /-- SADD (R145). -/
  | vSadd (v : VS)
  /-- SSUB (R145). -/
  | vSsub (v : VS)
  /-- SMUL (R145). -/
  | vSmul (v : VS)
  /-- SLD (R145). -/
  | vSld (v : VS)
  /-- SST (R145). -/
  | vSst (v : VS)
  /-- SLI (R145). -/
  | vSli (v : VS)
  /-- BR (R145). -/
  | vBr (v : VS)
  /-- END (R159). -/
  | vEnd (v : VS)
  /-- INSTRUCTION_LIMIT_EXCEEDED (R160). -/
  | instructionLimitExceeded (core : Nat)
  /-- UNIT_WATCHDOG_EXPIRY (R343). -/
  | unitWatchdogExpiry (core : Nat) (u : CoreUnit) (t : Nat)
  /-- PATROL_READ (R215). -/
  | patrolRead (stack : Nat) (off : Nat) (seen : WordState)
  /-- STACK_RETRAIN (R208). -/
  | stackRetrain (stack : Nat)
  /-- ARRAY_FENCE_SET (R102). -/
  | arrayFenceSet (fn : Nat) (core : Nat) (val : BitVec 32)
  /-- UNIT_RETURN_TO_SERVICE (R342). -/
  | unitReturnToService (fn : Nat) (core : Nat) (u : CoreUnit)
  /-- SELF_TEST_DONE (R342): of an array by the runs of its patterns, of another unit by the outcome of its residue test. -/
  | selfTestDone (core : Nat) (u : CoreUnit) (passed : Bool) (runs : List PatternRun)
  /-- FENCED_ARRAY_SELF_TEST (R341). -/
  | fencedArraySelfTest (core : Nat) (array : Nat) (runs : List PatternRun)
  /-- UNIT_RETIRE (R510). -/
  | unitRetire (fn : Nat) (core : Nat) (u : CoreUnit)
  /-- WINGBEAT_ARM (R344). -/
  | wingbeatArm
  /-- WINGBEAT_BEAT (R344). -/
  | wingbeatBeat
  /-- WINGBEAT_SAMPLE (R344). -/
  | wingbeatSample (t : Nat)
  /-- FIRMWARE_RESTART (R345). -/
  | firmwareRestart (fn : Nat) (val : BitVec 32)
  /-- RAS_IRQ_WRITE (R357). -/
  | rasIrqWrite (fn : Nat) (val : BitVec 32)
  /-- RAS_WINDOW_DATA_READ (R353). -/
  | rasWindowDataRead (fn : Nat) (off : Nat) (size : Nat)
  /-- WRITE (R377). -/
  | rxWrite (port : Nat) (f : Frame)
  /-- SEND (R377). -/
  | rxSend (port : Nat) (f : Frame)
  /-- ATOMIC_ADD (R379). -/
  | rxAtomicAdd (port : Nat) (f : Frame)
  /-- ABORT (R359). -/
  | rxAbort (port : Nat) (f : Frame)
  /-- CANCEL (R381). -/
  | rxCancel (port : Nat) (f : Frame)
  /-- ACK (R378). -/
  | rxAck (port : Nat) (f : Frame)
  /-- NAK (R378). -/
  | rxNak (port : Nat) (f : Frame)
  /-- RNR (R380). -/
  | rxRnr (port : Nat) (f : Frame)
  /-- REFUSE (R382). -/
  | rxRefuse (port : Nat) (f : Frame)
  /-- KEYX (R366). -/
  | rxKeyx (port : Nat) (nonce : BitVec 256) (peerPort : Nat) (tag : BitVec 128)
  /-- HELLO (R372). -/
  | rxHello (port : Nat) (owned : Bool) (epoch : BitVec 8) (peerPort : Nat) (credits : Nat) (tag : BitVec 128)
  /-- KEEPALIVE (R364). -/
  | rxKeepalive (port : Nat)
  /-- OTHER_FRAME_DROP (R363). -/
  | otherFrameDrop (port : Nat) (unprotected : Bool)
  /-- SEGMENT_TRANSMIT (R379). -/
  | segmentTransmit (port : Nat)
  /-- RETRANSMIT_TIMEOUT (R378). -/
  | retransmitTimeout (port : Nat) (psn : BitVec 32) (t : Nat)
  /-- RNR_RETRY (R380). -/
  | rnrRetry (port : Nat) (t : Nat)
  /-- ACK_TIMER (R378). -/
  | ackTimer (port : Nat) (t : Nat)
  /-- KEEPALIVE_TIMER (R364). -/
  | keepaliveTimer (port : Nat) (t : Nat)
  /-- HELLO_TIMER (R372). -/
  | helloTimer (port : Nat) (t : Nat)
  /-- PEER_SILENCE_TIMEOUT (R364). -/
  | peerSilenceTimeout (port : Nat) (t : Nat)
  /-- LINK_GIVE_UP (R374). -/
  | linkGiveUp (port : Nat) (t : Nat)
  /-- REKEY (R367). -/
  | rekey (port : Nat)
  /-- LINK_UP (R366). -/
  | linkUp (port : Nat) (fast : Bool) (nonce : BitVec 256)
  /-- LINK_DOWN (R374). -/
  | linkDown (port : Nat) (refLost : Bool) (t : Nat)
  /-- RETRAIN (R389). -/
  | retrain (fn : Nat) (port : Nat) (val : BitVec 32)
  /-- FUNDAMENTAL_RESET (R391). -/
  | fundamentalReset (fuseOk : Bool) (nonce : BitVec 256) (rates : BitVec 16)
  /-- WARM_RESET (R423). -/
  | warmReset (low : Bool) (fuseOk : Bool) (rates : BitVec 16)
  /-- HOT_RESET (R424). -/
  | hotReset (fuseOk : Bool) (rates : BitVec 16)
  /-- FUNCTION_LEVEL_RESET (R255). -/
  | functionLevelReset (fn : Nat)
  /-- POWER_UP (R486). -/
  | powerUp (fuseOk : Bool) (nonce : BitVec 256) (rates : BitVec 16)
  /-- POWER_LOSS (R487). -/
  | powerLoss
  /-- BROWN_OUT (R488). -/
  | brownOut (supply : Nat)
  /-- THERMTRIP (R470). -/
  | thermtrip
  /-- GO (R393). -/
  | go (fn : Nat) (val : BitVec 32)
  /-- IMAGE_FETCHED (R396). -/
  | imageFetched (readOk : Bool) (image : List (BitVec 8)) (cert : List (BitVec 8))
  /-- DEBUG_CLOSE (R402). -/
  | debugClose (fn : Nat) (val : BitVec 32)
  /-- GET_VERSION (R404). -/
  | getVersion (rsp : Nat)
  /-- GET_CAPABILITIES (R404). -/
  | getCapabilities (rsp : Nat)
  /-- NEGOTIATE_ALGORITHMS (R404). -/
  | negotiateAlgorithms (rsp : Nat) (offered : Bool)
  /-- GET_DIGESTS (R404). -/
  | getDigests (rsp : Nat)
  /-- GET_CERTIFICATE (R404). -/
  | getCertificate (rsp : Nat) (slot : Nat) (off : Nat) (len : Nat)
  /-- CHALLENGE (R404). -/
  | challenge (rsp : Nat) (slot : Nat) (nonce : BitVec 256)
  /-- GET_MEASUREMENTS (R404). -/
  | getMeasurements (rsp : Nat) (block : Nat) (nonce : BitVec 256)
  /-- KEY_EXCHANGE (R404). -/
  | keyExchange (rsp : Nat) (sess : Nat)
  /-- FINISH (R404). -/
  | finish (rsp : Nat) (sess : Nat) (verified : Bool)
  /-- KEY_UPDATE (R404). -/
  | keyUpdate (rsp : Nat) (sess : Nat)
  /-- HEARTBEAT (R404). -/
  | heartbeat (rsp : Nat) (sess : Nat)
  /-- END_SESSION (R404). -/
  | endSession (rsp : Nat) (sess : Nat)
  /-- CHUNK_SEND (R404). -/
  | chunkSend (rsp : Nat) (handle : Nat) (seq : Nat) (last : Bool) (data : List (BitVec 8))
  /-- CHUNK_GET (R404). -/
  | chunkGet (rsp : Nat) (handle : Nat) (seq : Nat)
  /-- VENDOR_DEFINED_REQUEST (R405). -/
  | vendorDefinedRequest (rsp : Nat) (vendor : Nat) (code : Nat) (scope : Nat) (nonce : BitVec 256)
  /-- DOE_ABORT (R277). -/
  | doeAbort (fn : Nat)
  /-- IDE_KM (R277). -/
  | ideKm (rsp : Nat) (sess : Nat) (stream : Nat) (keySet : Nat)
  /-- IDE_STREAM_LIVE (R279). -/
  | ideStreamLive (fn : Nat)
  /-- BAR4_WRITE (R258). -/
  | bar4Write (off : Nat) (data : List (BitVec 8))
  /-- BAR4_READ (R258). -/
  | bar4Read (off : Nat) (len : Nat)
  /-- BAR4_WINDOW_WRITE (R258). -/
  | bar4WindowWrite (fn : Nat) (val : BitVec 32)
  /-- IDE_REQUIRED_WRITE (R279). -/
  | ideRequiredWrite (fn : Nat) (val : BitVec 32)
  /-- ADMIN_ENABLE (R266). -/
  | adminEnable (fn : Nat) (val : BitVec 32)
  /-- ADMIN_DISABLE (R266). -/
  | adminDisable (fn : Nat) (val : BitVec 32)
  /-- TIME_LO_READ (R422): a read of `size` bytes at `off` that touches the register. -/
  | timeLoRead (fn : Nat) (off : Nat) (size : Nat)
  /-- COUNTER_LO_READ (R444): a read that touches a counter's low half. -/
  | counterLoRead (fn : Nat) (off : Nat) (size : Nat)
  /-- COUNTER_CFG_WRITE (R441). -/
  | counterCfgWrite (fn : Nat) (core : Nat) (k : Nat) (val : BitVec 32)
  /-- TRACE_INDEX_LO_READ (R459). -/
  | traceIndexLoRead (fn : Nat) (off : Nat) (size : Nat)
  /-- FIRE (R451). -/
  | fire (fn : Nat) (part : Nat) (val : BitVec 32)
  /-- TRACE_HEADER_TIMER (R449). -/
  | traceHeaderTimer (part : Nat) (t : Nat)
  /-- TRACE_NULL_TIMER (R450). -/
  | traceNullTimer (part : Nat) (t : Nat)
  /-- OBSERVATION_WINDOW (R453). -/
  | observationWindow (part : Nat) (t : Nat)
  /-- STOP_ARM (R427). -/
  | stopArm (fn : Nat) (val : BitVec 32)
  /-- STOP_CANCEL (R429). -/
  | stopCancel (fn : Nat) (val : BitVec 32)
  /-- STOP_TIME_REACHED (R430). -/
  | stopTimeReached (t : Nat)
  /-- STOP_ALL_HALTED (R437). -/
  | stopAllHalted (span : Nat) (frameSpan : Nat) (t : Nat)
  /-- STOP_DUMP_DONE (R437). -/
  | stopDumpDone (t : Nat)
  /-- STOP_RESUME (R438). -/
  | stopResume (fn : Nat) (val : BitVec 32)
  /-- STOP_RESET (R438). -/
  | stopReset (fn : Nat) (val : BitVec 32)
  /-- STOP_RELEASE (R438). -/
  | stopRelease (t : Nat)
  /-- SENSOR_SAMPLE (R467). -/
  | sensorSample (x : Sensors) (t : Nat)
  /-- THROTTLE_MAX_TIMEOUT (R468). -/
  | throttleMaxTimeout (t : Nat)
  /-- THRESHOLD_WRITE (R469). -/
  | thresholdWrite (fn : Nat) (off : Nat) (val : BitVec 32)
  /-- SET_ENDPOINT_ID (R462). -/
  | setEndpointId (i3c : Bool) (dest : Nat) (eid : Nat)
  /-- GET_ENDPOINT_ID (R462). -/
  | getEndpointId (i3c : Bool) (dest : Nat)
  /-- GET_MCTP_VERSION_SUPPORT (R462). -/
  | getMctpVersionSupport (i3c : Bool) (dest : Nat)
  /-- GET_MESSAGE_TYPE_SUPPORT (R462). -/
  | getMessageTypeSupport (i3c : Bool) (dest : Nat)
  /-- GET_ENDPOINT_UUID (R462). -/
  | getEndpointUuid (i3c : Bool) (dest : Nat)
  /-- GET_STATUS (R464). -/
  | getStatus (i3c : Bool) (dest : Nat) (inst : Nat) (len : Nat)
  /-- GET_SENSORS (R466). -/
  | getSensors (i3c : Bool) (dest : Nat) (inst : Nat) (len : Nat)
  /-- GET_ERRORS (R464). -/
  | getErrors (i3c : Bool) (dest : Nat) (inst : Nat) (len : Nat)
  /-- GET_THRESHOLDS (R464). -/
  | getThresholds (i3c : Bool) (dest : Nat) (inst : Nat) (len : Nat)
  /-- SET_THRESHOLDS (R469). -/
  | setThresholds (i3c : Bool) (dest : Nat) (inst : Nat) (len : Nat) (therm : BitVec 32) (power : BitVec 32)
  /-- CLEAR_ALERT (R472). -/
  | clearAlert (i3c : Bool) (dest : Nat) (inst : Nat) (len : Nat) (mask : BitVec 32)
  /-- DYNAMIC_ADDRESS_ASSIGNMENT (R461). -/
  | dynamicAddressAssignment (addr : Nat)
  /-- ALERT_RESPONSE_ADDRESS_READ (R471). -/
  | alertResponseAddressRead
  /-- SMBUS_TIMEOUT (R504). -/
  | smbusTimeout
  /-- REGISTER_WRITE (R10); `ideOk` says that the request passes the check of a live IDE stream (R278). -/
  | registerWrite (fn : Nat) (off : Nat) (size : Nat) (val : BitVec 64) (ideOk : Bool)
  /-- HOST_READ_COMPLETION_TIMEOUT (R329). -/
  | hostReadCompletionTimeout (fn : Nat) (tag : Nat)
  /-- PERST_ASSERTION (R423). -/
  | perstAssertion
  /-- SUPPLY_RETURN (R488). -/
  | supplyReturn (supply : Nat) (fuseOk : Bool) (nonce : BitVec 256) (rates : BitVec 16)
  /-- VF_ENABLE (R254). -/
  | vfEnable (numVfs : Nat)
  /-- MSIX_VECTOR_UNMASK (R276). -/
  | msixVectorUnmask (fn : Nat) (vector : Option Nat) (mask : Bool)
  /-- DOE_DISCOVERY (R277). -/
  | doeDiscovery (fn : Nat) (index : Nat)
  /-- CONFIGURE_DONE (R319). -/
  | configureDone (cmd : Nat)
  /-- CONTEXT_SWITCH_DONE (R323). -/
  | contextSwitchDone (part : Nat) (digestOk : Bool) (t : Nat)
  /-- CONTEXT_HOLD_TIMEOUT (R323). -/
  | contextHoldTimeout (part : Nat) (t : Nat)
  /-- RNR_WAIT_TIMEOUT (R380). -/
  | rnrWaitTimeout (cmd : Nat) (t : Nat)
  /-- STACK_RETRAIN_DONE (R208). -/
  | stackRetrainDone (stack : Nat) (rate : Nat)
  /-- COUNTER_WRAP (R443). -/
  | counterWrap (core : Nat) (k : Nat)
  /-- I3C_DYNAMIC_ADDRESS_RESET (R461). -/
  | i3cDynamicAddressReset
  /-- IN_BAND_INTERRUPT_ENABLE (R471). -/
  | inBandInterruptEnable (on : Bool)
  /-- ETH_REFERENCE_RETURN (R491). -/
  | ethReferenceReturn (port : Nat)
  deriving DecidableEq, Repr

end Sys2Proof
end

