-- ==== Sys2Proof/Decode.lean ====
section
/-!
DEFINITION. The command that a word spells by the bits of spec/opcode_table.json. The table gives bits to none of its rows,
because the block has no instruction decoder: its rows are operations and events.
-/
namespace Sys2Proof

/-- The command of a word: none, since no row has bits (log entry 10). -/
def decodeTableWord (_nbits _w : Nat) : Option Instr := none

end Sys2Proof
end

