-- ==== Sys2Proof/Config.lean ====
section
/-!
DEFINITION. What an implementation fixes and the spec leaves open: free values (constants without a body, so nothing can be
proved of them), the cryptographic functions, and the one value the model names for memory nothing has written.
-/
namespace Sys2Proof

/-- What a byte of HBM, SRAM or received host data reads as when nothing has written it. DESIGN CHOICE, unsafe (log entry
4); a scrub or an SRAM clear leaves zero by R216. -/
def Config.blankByte (_ : Nat) : Byte := 0

/-- A byte that the spec leaves open, by the draw's number and an index (log entry 7). -/
opaque Config.freeByte : Nat → Nat → Byte

/-- A 32-bit value that the spec leaves open, by the draw's number and an index (log entry 7). -/
opaque Config.freeWord : Nat → Nat → Word

/-- A number that the spec leaves open, by the draw's number and an index (log entry 7). -/
opaque Config.freeNat : Nat → Nat → Nat

/-- A choice that the spec leaves open, by the draw's number and an index (log entry 7). -/
opaque Config.freeBit : Nat → Nat → Bool

/-- Which of the results that R147 allows the special-function unit gives, by function code and input bits (log entry 11). -/
opaque Config.sfu : Nat → Nat → Nat

/-- Whether MOE_ROUTE subtracts the largest logit before a softmax, which R131 does not say (log entry 11). -/
opaque Config.softmaxShift : Bool

/-- Whether a division takes the optional correction step of R147 (log entry 11). -/
opaque Config.divCorrect : Bool

/-- Which of the query's scale blocks inside one block of a longer-blocked key gives the scale of R191, which the spec does not say
(log entry 35): a number taken modulo how many there are. -/
opaque Config.querySub : Nat → Nat

/-- Whether a NaN selection score ranks above every number, which R132 does not say (log entry 7). -/
opaque Config.nanRanksHigh : Bool

/-! ## Self-test (R340) -/

/-- The FP32 accumulators that a sound array ends a self-test pattern with, whose converted digest the mask ROM holds (log entry 5). -/
opaque Config.patternAccs : Nat → List Nat

/-- What the self-test of an array at boot ends a pattern with, by the draw's number, the array and the pattern (log entry 5). -/
opaque Config.bootRun : Nat → Nat → Nat → PatternRun

/-! ## Cryptographic functions (log entry 6) -/

/-- SHA-384 (R404). -/
opaque Config.sha384 : List Byte → List Byte

/-- The SLH-DSA public key of a 96-byte seed (R399). -/
opaque Config.slhPk : List Byte → List Byte

/-- The SLH-DSA-SHAKE-256f signature of a message under the key of a seed (R406). -/
opaque Config.slhSign : List Byte → List Byte → List Byte

/-- Whether an SLH-DSA-SHAKE-256s signature of a message verifies under a public key (R395). -/
opaque Config.slhVerify : List Byte → List Byte → List Byte → Bool

/-- The ECDSA P-384 signature of a transcript under the key of a seed, with the nonces of both sides in it (R404). -/
opaque Config.ecdsaSign : List Byte → List Byte → List Byte

/-- The subject public key of an X.509 certificate (R401). -/
opaque Config.certKey : List Byte → List Byte

/-- The alias certificate of the SPDM key that the DeviceID key issues over the measurement registers (R401). -/
opaque Config.aliasCert : List Byte → List Byte → List Byte

/-- The ML-KEM-1024 encapsulation key of a key pair (R409), by the number of the draw that made it. -/
opaque Config.kemPk : Nat → List Byte

/-- ML-KEM-1024 decapsulation under a key pair (R410). -/
opaque Config.kemDecap : Nat → List Byte → List Byte

/-- AES-256-GCM decryption: key, IV, additional data, ciphertext and tag; none where the tag fails (R410, R412). -/
opaque Config.gcmOpen : List Byte → List Byte → List Byte → List Byte → List Byte → Option (List Byte)

/-! ## Secrets and identities of a part (R397, R399, R462) -/

/-- The digest of the mask ROM (R398). -/
opaque Config.romDigest : List Byte
/-- The fleet key, 32 bytes (R366, R397). -/
opaque Config.fleetKey : List Byte
/-- The unique device secret (R397). -/
opaque Config.uds : List Byte
/-- FW_KEY_DIGEST_k (R397). -/
opaque Config.keyDigest : Nat → List Byte
/-- LOT_WAFER_DIE, 8 bytes (R397). -/
opaque Config.lotWaferDie : List Byte
/-- The root certificate of the chain (R404). -/
opaque Config.rootCert : List Byte
/-- The endpoint UUID (R462). -/
opaque Config.uuid : List Byte
/-- The MCTP versions that the mailbox names (R462). -/
opaque Config.mctpVersions : List Byte
/-- The bytes of a response in one SPDM chunk (R405), which the spec does not give. -/
opaque Config.chunkBytes : Nat

end Sys2Proof
end

