-- ==== Sys2Proof/Machine/State.lean ====
section
/-!
DEFINITION. The state of the DN-824: plain data, one field for each thing the spec lets the device remember, and the state
right after reset. Registers of BAR0 are one sparse map keyed by offset (their reset values are `regReset` of Regs.lean);
the rest of the state is what those registers do not show. Log entry 3 names the reset values the spec leaves open.
-/
namespace Sys2Proof.Machine

/-- Why a command stops without a next state: it has no constructor, for no command of the block stops. -/
inductive Fault
  deriving DecidableEq, Repr

/-- Why a command has no meaning here. -/
inductive Refusal where
  /-- Raised by the arm of a row whose meaning is not written, with the row's mnemonic. Safe: nothing can be proved of a
  next state. -/
  | notModelled (mnemonic : String)
  deriving DecidableEq, Repr

/-! ## What the device has sent -/

/-- A message the device put on one of its links, in order (log entry 9). -/
inductive Out where
  /-- An MSI-X message of a function's vector (R276). -/
  | msix (fn vector : Nat)
  /-- A read request for host memory with its tag (R252, R329). -/
  | hostRead (fn tag addr len : Nat)
  /-- A read request for slots of a submission ring (R260). -/
  | ringRead (fn addr len : Nat)
  /-- A posted write to host memory (R240). -/
  | hostWrite (fn addr : Nat) (data : List Byte)
  /-- The bytes of a register read (R9). -/
  | readData (fn off : Nat) (data : List Byte)
  /-- The data of a BAR4 read; none is a poisoned completion (R258). -/
  | bar4Data (data : Option (List Byte))
  /-- A Stobel frame on a port (R379). -/
  | frame (port : Nat) (f : Frame)
  /-- A key-exchange frame with its nonce, port number and tag (R366). -/
  | keyx (port : Nat) (nonce : BitVec 256) (tag : BitVec 128)
  /-- A hello with its contents, the last the start of the device identity digest (R372). -/
  | hello (port : Nat) (owned : Bool) (epoch : BitVec 8) (credits : Nat) (tag : BitVec 128)
  /-- A response of a DOE instance, of the sideband or of MCTP control: responder, code and payload (R277, R404, R462). -/
  | reply (rsp code : Nat) (data : List Byte)
  /-- An I3C in-band interrupt with its cause's bit number (R471). -/
  | inBand (cause : Nat)
  /-- An IDE check failure reported through AER (R278). -/
  | aer (fn : Nat)
  deriving DecidableEq, Repr

/-! ## Clocks, pins and fuses (chapters 14, 15, 18) -/

/-- The timestamp, what the pins and supplies show (R420, R423, R470, R482, R488), and the armed stop (R426 to R438): its T and its
ACTION, the R of its release, and whether that release resets. `heldBy` has a bit for each supply that holds the device in reset,
`fresh` says that the next boot takes a new nonce, and `ethLost` has a bit for each port without its reference. -/
structure Clk where
  time       : Nat := 0
  perst      : Bool := true
  warm       : Bool := false
  powered    : Bool := true
  tripped    : Bool := false
  heldBy     : Nat := 0
  strapBalls : Nat := 0
  straps     : Nat := 0
  strapsDue  : Bool := false
  bootNonce  : BitVec 256 := 0
  fresh      : Bool := true
  ethLost    : Nat := 0
  stopT      : Nat := 0
  resumeAt   : Nat := 0
  stopAction : Nat := 0
  stopReset  : Bool := false
  deriving DecidableEq, Repr

/-- The readable fuse image (R397). The secret fields are constants of Config. -/
structure Fuses where
  debugClosed    : Bool := true
  keyRevoked     : Nat := 0
  minSvn         : Nat := 0
  keysProgrammed : Nat := 1
  mac            : Nat := 0
  deriving DecidableEq, Repr

/-- An SPDM session of a responder (R404): whether its FINISH has been verified. -/
structure Session where
  rsp  : Nat
  id   : Nat
  done : Bool := false
  deriving DecidableEq, Repr

/-- A chunked request being received, with the next sequence number, or a large response still held (R405): its handle and bytes. -/
structure Chunked where
  handle : Nat := 0
  seq    : Nat := 0
  data   : List Byte := []
  deriving DecidableEq, Repr

/-- The boot sequence (R391, R393, R401, R403): whether the device has reached Eclosion since its last boot, the waiting STATE
that the running push came from, and the DeviceID certificate the host supplied; and the SPDM responders (R404): their sessions,
the chunked request each is receiving and the large response each still holds. -/
structure Boot where
  eclosed  : Bool := false
  waiting  : Nat := 1
  cert     : List Byte := []
  sessions : List Session := []
  inbox    : Tbl Chunked := []
  large    : Tbl Chunked := []
  deriving DecidableEq, Repr

/-- The management mailbox (R461, R466 to R472): the latest sample, the thermal and power levels, since when L has stood at 8, and
whether in-band interrupts are enabled. -/
structure Mgmt where
  sample   : Sensors := {}
  thermal  : Nat := 0
  power    : Nat := 0
  maxSince : Option Nat := none
  ibi      : Bool := false
  deriving DecidableEq, Repr

/-! ## Queues and commands (chapters 9 and 10) -/

/-- A submission-queue context (R264); `fn` is the owning function, `lost` an uncorrectable context (R343). -/
structure SqCtx where
  ring       : Nat := 0
  size       : Nat := 0
  cls        : Nat := 0
  counters   : Bool := false
  infinite   : Bool := false
  part       : Nat := 0
  asid       : Nat := 0
  cq         : Nat := 0
  epoch      : Nat := 0
  enabled    : Bool := false
  halted     : Bool := false
  idlePend   : Bool := false
  timeoutM1  : Nat := 0
  head       : Nat := 0
  tail       : Nat := 0
  seq        : Word := 0
  haltStatus : Nat := 0
  inFlight   : Nat := 0
  fn         : Nat := 0
  lost       : Bool := false
  stopFetch  : Bool := false
  adminGone  : Bool := false
  deriving DecidableEq, Repr

/-- A completion-queue context (R272), with the entries since its last interrupt (R276) and the front-end entries that wait
for a slot (R274). -/
structure CqCtx where
  ring     : Nat := 0
  size     : Nat := 0
  vector   : Nat := 0
  noIrq    : Bool := false
  modCount : Nat := 0
  modTime  : Nat := 0
  head     : Nat := 0
  tail     : Nat := 0
  reserved : Nat := 0
  phase    : Bool := false
  armed    : Bool := false
  enabled  : Bool := false
  fn       : Nat := 0
  fresh    : Nat := 0
  oldest   : Nat := 0
  freshErr : Bool := false
  waiting  : List (List Byte) := []
  deriving DecidableEq, Repr

/-- A ring read outstanding: the queue, the slots of its first and second request, the slots the visit has taken, and the
tail the visit read (R260, R269). `void` says that its slots are to be discarded, because a packet before them was rejected since
(R285). -/
structure RingRead where
  queue : Nat
  fn    : Nat
  part  : Nat
  epoch : Nat
  first : Nat
  n1    : Nat
  n2    : Nat
  taken : Nat
  tail  : Nat
  void  : Bool := false
  deriving DecidableEq, Repr

/-- A packet fetched and not yet dispatched (R269, R283). -/
structure Fetched where
  queue : Nat
  seq   : Word
  slot  : Nat
  pkt   : Nat
  deriving DecidableEq, Repr

/-- Where a command in flight stands: dispatched, started (R295), begun by its engine (a command of several events), done but for
its release (R238, R240), or written and waiting for a tensor watch (R455). -/
inductive Phase where
  | dispatched | started | running | written | watched
  deriving DecidableEq, Repr

/-- A command in flight (R236, R283, R295). `cores` are those it uses, once it has started (R233), `traced` those whose engines have
begun work for it, and `dst` the start of its destination while its end waits for its release (R238). -/
structure Cmd where
  id        : Nat
  queue     : Nat := 0
  seq       : Word := 0
  pkt       : Nat := 0
  fn        : Nat := 0
  cls       : Nat := 0
  qpart     : Nat := 0
  part      : Nat := 0
  asid      : Nat := 0
  cq        : Nat := 0
  epoch     : Nat := 0
  timeoutM1 : Nat := 0
  infinite  : Bool := false
  step      : Nat := 0
  dispAt    : Nat := 0
  deadline  : Nat := 0
  waited    : Bool := false
  met       : Option Nat := none
  barAt     : Option Nat := none
  phase     : Phase := .dispatched
  start     : Nat := 0
  begun     : Nat := 0
  replays   : Nat := 0
  block     : Option (List Byte) := none
  got       : List (Nat × Nat) := []
  hostErr   : Bool := false
  dirty     : Bool := false
  aborted   : Bool := false
  status    : Nat := 0
  detail    : Nat := 0
  flags     : Nat := 0
  aux       : List Nat := []
  watching  : List Nat := []
  traced    : List Nat := []
  cores     : List Nat := []
  dst       : Option Nat := none
  deriving DecidableEq, Repr

/-- An outstanding host read: tag, requesting function, the command it serves, and the epoch it was sent under (R329). -/
structure Tag where
  tag   : Nat
  fn    : Nat
  cmd   : Nat
  part  : Nat
  epoch : Nat
  addr  : Nat
  len   : Nat
  deriving DecidableEq, Repr

/-- The front end (chapter 9): queues, tail table, pending bitmap, scheduler, packets and commands; and of the configuration space
(R252, R254, R276) NumVFs, the function masks, and the largest payload and read request the host allows. -/
structure FrontEnd where
  sqs       : Tbl SqCtx := []
  cqs       : Tbl CqCtx := []
  tails     : Tbl Nat := []
  pend      : Tbl Bool := []
  rrOwner   : Nat := 0
  rrNext    : Tbl Nat := []
  cache     : List Nat := []
  ringReads : List RingRead := []
  fetched   : List Fetched := []
  cmds      : List Cmd := []
  nextCmd   : Nat := 1
  tags      : List Tag := []
  heldIde   : List (Nat × Out) := []
  stopHeld  : List Instr := []
  numVfs    : Nat := 0
  fnMask    : Tbl Bool := []
  maxPayload : Nat := 128
  maxRead   : Nat := 512
  ideKeys   : Tbl Nat := []
  deriving DecidableEq, Repr

/-! ## Memory (chapters 7, 8) -/

/-- HBM plaintext by DPA, SRAM by core · 2²⁴ + local offset, and the fences; and of each 128-bit word of HBM and SRAM, by its
address ÷ 16, whether it reads as uncorrectable and whether it holds a single-bit error (R212, R213). The words of the fences are
words of HBM (R205). -/
structure Mem where
  hbm      : Tbl Byte := []
  hbmBad   : Tbl Bool := []
  hbmOne   : Tbl Bool := []
  sram     : Tbl Byte := []
  sramBad  : Tbl Bool := []
  sramOne  : Tbl Bool := []
  fences   : Tbl (BitVec 64) := []
  deriving DecidableEq, Repr

/-- A run of mapped pages of one size in one address space (R220, R221). `since` is the number of the first command that
sees it (R222). -/
structure Mapping where
  asid    : Nat
  dva     : Nat
  pages   : Nat
  big     : Bool
  target  : Nat
  host    : Bool
  write   : Bool
  user    : Bool
  nocache : Bool
  since   : Nat
  deriving DecidableEq, Repr

/-- A check that the running pass failed (R86, R126, R334): the array, the expander lane if it was a lane's, whether a stored
block was to blame, and the values the record gives. -/
structure Fail where
  array : Option Nat
  lane  : Option Nat := none
  block : Bool := false
  want  : Nat := 0
  got   : Nat := 0
  deriving DecidableEq, Repr

/-- One tile of a fabric operation that a core holds (R90): its number, expert, output rows and columns; once it has entered the
arrays, the stationary tiles of its passes and the arrays that its rows are dealt to (R76); the outputs of its finished row
groups; the pass and row group that run, and the committed bank of that group (R82); the row slots of the pass already checked
and the slots at which it was split (R84); the checks that the pass failed (R88), how many passes have passed, and how many had
begun (R336). -/
structure Tile where
  cmd    : Nat
  num    : Nat
  expert : Nat := 0
  row    : Nat := 0
  rows   : Nat := 0
  col    : Nat := 0
  cols   : Nat := 0
  live   : Bool := false
  kts    : List Nat := []
  arrs   : List Nat := []
  done   : List Nat := []
  pass   : Nat := 0
  group  : Nat := 0
  bank   : Option Nat := none
  lo     : Nat := 0
  cuts   : List Nat := []
  failed : List Fail := []
  ran    : Nat := 0
  begun  : Nat := 0
  deriving DecidableEq, Repr

/-- A finished tile's FP32 outputs, row by row. -/
structure Patch where
  row  : Nat
  rows : Nat
  col  : Nat
  cols : Nat
  vals : List Nat
  deriving DecidableEq, Repr

/-- A fabric command in its partition's dispenser (R92, R94): its experts with their first row and row count, the next tile
number and how many there are, the tiles returned (R336), the tiles not yet written, the outputs that wait to be stored, the
rectangles stored (row, rows, column), and the conversion flags. -/
structure FabOp where
  cmd      : Nat
  experts  : List (Nat × Nat × Nat) := []
  next     : Nat := 0
  total    : Nat := 0
  returned : List Nat := []
  left     : Nat := 0
  patches  : List Patch := []
  stored   : List (Nat × Nat × Nat) := []
  flags    : Nat := 0
  deriving DecidableEq, Repr

/-- One sequence of an ATTEND_DECODE (R192, R195): its descriptor's pool, LENGTH, RUN and page list, its first row of the
batch, its first chunk and how many it has, and where its share of the scratch buffer begins. -/
structure AttSeq where
  pool   : Nat
  length : Nat
  run    : Nat
  pages  : List Nat
  row    : Nat
  first  : Nat
  chunks : Nat
  share  : Nat
  deriving DecidableEq, Repr

/-- An attention command in its dispenser (R192 to R195): its sequences, the pages of a chunk, the chunks that no core holds in
ascending order, those not finished, the partials of the finished chunks (a list of m, l and o for each query row), the finished
output rows that wait for the rest of their scale block, and the conversion flags. -/
structure AttOp where
  cmd      : Nat
  seqs     : List AttSeq := []
  pages    : Nat := 0
  todo     : List Nat := []
  left     : List Nat := []
  partials : List (Nat × List (List Nat)) := []
  outs     : List (Nat × List Nat) := []
  flags    : Nat := 0
  lost     : Nat := 0
  limit    : Bool := false
  deriving DecidableEq, Repr

/-- A sequence descriptor (R171): STATE 0 free, 1 idle, 2 stepping; `asid` is the address space of its page list. -/
structure Seq where
  state    : Nat := 0
  pool     : Nat := 0
  length   : Nat := 0
  maxTok   : Nat := 0
  run      : Nat := 0
  list     : Nat := 0
  asid     : Nat := 0
  count    : Nat := 0
  step     : Nat := 0
  lastKey  : Nat := 0
  keyPages : Nat := 0
  deriving DecidableEq, Repr

/-- A valid bucket entry (R183); `slot` is 4 × its bucket + its place in it. -/
structure Entry where
  slot     : Nat
  key      : Nat
  page     : Nat
  parent   : Nat
  stamp    : Nat
  children : Nat := 0
  deriving DecidableEq, Repr

/-- A KV pool (R164 to R186); PAGES 0 is an index that holds none. `taken` lists the pages ever taken from the free stack,
`stack` those pushed back onto it, the top first; `refs` holds each page's REFCOUNT. -/
structure Pool where
  asid      : Nat := 0
  base      : Nat := 0
  metaAt    : Nat := 0
  pages     : Nat := 0
  layers    : Nat := 0
  heads     : Nat := 0
  dim       : Nat := 0
  tag       : Nat := 0
  log2      : Nat := 0
  salt      : Nat := 0
  stamp     : Nat := 0
  deferrals : Nat := 0
  evictions : Nat := 0
  taken     : List Nat := []
  stack     : List Nat := []
  refs      : Tbl Nat := []
  entries   : List Entry := []
  deriving DecidableEq, Repr

/-- A tensor-watch slot that is armed (R454). -/
structure Watch where
  addr   : Nat
  bytes  : Nat
  step   : Nat
  dump   : Nat
  dumpN  : Nat
  record : Nat
  fence  : Nat
  signal : Bool
  asid   : Nat
  user   : Bool
  deriving DecidableEq, Repr

/-- The trace unit of a partition (R448 to R452). -/
structure Trace where
  asid     : Nat := 0
  ring     : Nat := 0
  slots    : Nat := 0
  mode     : Nat := 0
  pre      : Nat := 0
  trigger  : Nat := 0
  trigCore : Nat := 0
  trigStat : Nat := 0
  trigOp   : Nat := 0
  trigCtr  : Nat := 0
  types    : Nat := 0
  engines  : Nat := 0
  index    : Nat := 0
  written  : Nat := 0
  slot     : Nat := 0
  trigIdx  : Nat := 0xFFFF_FFFF_FFFF_FFFF
  lostNow  : Nat := 0
  staged   : List (Nat × List Byte) := []
  indexHi  : Nat := 0
  deriving DecidableEq, Repr

/-- A program of the program store (R155 to R157): its image. -/
structure Program where
  image : List Byte := []
  deriving DecidableEq, Repr

/-- A saved context image of one slot (R324): its header fields, the regions' bytes in order, and the table records. -/
structure Cocoon where
  epoch   : Nat := 0
  shape   : Nat := 0
  regions : Nat := 0
  step    : Nat := 0
  sram    : Tbl Byte := []
  tables  : List (Nat × Bool × Nat × List Byte) := []
  deriving DecidableEq, Repr

/-- A registered region or fence range of an endpoint (R375). -/
structure Region where
  ep     : Nat
  key    : Nat
  kind   : Nat
  addr   : Nat
  bytes  : Nat
  asid   : Nat
  user   : Bool
  deriving DecidableEq, Repr

/-- A posted receive buffer of an endpoint (R376). -/
structure Buffer where
  ep    : Nat
  cmd   : Nat
  addr  : Nat
  bytes : Nat
  asid  : Nat
  user  : Bool
  deriving DecidableEq, Repr

/-- A 4 KiB page table in use (R219, R221): its address space, level (4 for a root), the DVA bits above what it indexes, and its
number in the page-table pool. -/
structure PageTable where
  asid  : Nat
  level : Nat
  pre   : Nat
  num   : Nat
  deriving DecidableEq, Repr

/-- What a partition holds besides its registers (chapters 5, 7, 11, 13, 14, 16). -/
structure Part where
  ptPool    : Nat := 0
  ptTables  : Nat := 0
  tables    : List PageTable := []
  maps      : List Mapping := []
  sealed    : List (Nat × Nat) := []
  sets      : List (Nat × List Byte) := []
  plog      : List (List Byte) := []
  keys      : Tbl Nat := []
  kem       : Nat := 0
  configs   : Nat := 0
  progs     : Tbl Program := []
  regions   : List Region := []
  buffers   : List Buffer := []
  trace     : Trace := {}
  watches   : List (Nat × Watch) := []
  obsUsed   : Tbl Nat := []
  obsHeld   : Option Nat := none
  fab       : List FabOp := []
  att       : List AttOp := []
  pools     : Tbl Pool := []
  seqs      : Tbl Seq := []
  hold      : Option Nat := none
  slots     : Tbl Cocoon := []
  closing   : Bool := false
  ends      : List Nat := []
  awaits    : List Nat := []
  drainAt   : Option Nat := none
  drained   : Nat := 0
  releaseBy : Option Nat := none
  resetDue  : Bool := false
  deriving DecidableEq, Repr

/-! ## Cores (chapters 3 to 6, 12) -/

/-- A line of a data cache: its 64-byte unit, bytes, dirty bytes as a mask (R244), and its uncorrectable 128-bit words as a
mask (R212, R214). -/
structure Line where
  unit  : Nat
  data  : List Byte
  dirty : Nat := 0
  bad   : Nat := 0
  deriving DecidableEq, Repr

/-- The run a vector engine is executing (R159): its command, program, PC, instructions executed (R160), and the conversion
and arithmetic flags it raised (R161). -/
structure VRun where
  cmd    : Nat
  handle : Nat := 0
  pc     : Nat := 0
  count  : Nat := 0
  conv   : Nat := 0
  arith  : Nat := 0
  deriving DecidableEq, Repr

/-- What a cell or an operand port holds of an element: an integer count (R56, R58), an infinity or NaN (R57). -/
inductive Cell where
  | num (n : Int)
  | inf (neg : Bool)
  | nan
  deriving DecidableEq, Repr

/-- One reduction group of an activation row or a weight channel: its elements and the exponent of the unit they count in. -/
structure Grp where
  cells : List Cell := []
  unit  : Int := 0
  deriving DecidableEq, Repr

/-- One bank of what an array holds of a stationary tile: the groups of each channel as its cells hold them (R77), the scale
register file's entries of each channel (R61), and the checksum column modulo 2³² and 255 (R85, R86). -/
structure Stat where
  chans : List (List Grp) := []
  srf   : List (List Nat) := []
  check : List (Nat × Nat) := []
  deriving DecidableEq, Repr

/-- An array (R61, R70, R77, R78, R81): its two stationary banks and which is active, its eight accumulator banks, each FP32 word
with its byte parity from bit 32 upward, and the scales and biases of its accumulator-output converter by column, with its
bounds. -/
structure ArraySt where
  stat   : Tbl Stat := []
  active : Nat := 0
  banks  : Tbl (List Nat) := []
  cScale : Tbl Nat := []
  cBias  : Tbl Nat := []
  cLo    : Nat := 0xFF800000
  cHi    : Nat := 0x7F800000
  deriving DecidableEq, Repr

/-- A core (R16): the vector engine's registers, the tiles held, the attention chunks held (R192), each its command and number, the
values that reads of counters captured (R444), the data cache, the pending bits of the array fence (R102), the replay windows (R339),
the arrays, the decode slots from the most to the least recently used, the tables of the coded blocks that each decoder lane has still
to decode (R118), the units under self-test (R342) and the arrays whose self-test after a fence is due (R341), and when each unit last
made progress: 0 the arrays, 1 the vector engine, 2 the attention unit, 3 the DMA engine (R343). -/
structure CoreSt where
  v        : Tbl (List Word) := []
  m        : Tbl (BitVec 512) := []
  x        : Tbl (BitVec 64) := []
  run      : Option VRun := none
  insns    : List Nat := []
  tiles    : List Tile := []
  chunks   : List (Nat × Nat) := []
  caps     : Tbl Nat := []
  cache    : List Line := []
  fencePend : Nat := 0
  windows  : Tbl Nat := []
  arr      : Tbl ArraySt := []
  slotUse  : List Nat := []
  lanes    : Tbl (List Nat) := []
  testing  : List CoreUnit := []
  bist     : List Nat := []
  prog     : Tbl Nat := []
  deriving DecidableEq, Repr

/-- A decode table (R114 to R117): whether it is loaded, its generation and its 256-byte image. -/
structure DTable where
  valid : Bool := false
  gen   : Nat := 0
  image : List Byte := []
  deriving DecidableEq, Repr

/-! ## Ports (chapter 13) -/

/-- A sequenced frame sent and not acknowledged (R378): when it was last sent, its timeout now, and its resends. -/
structure TxFrame where
  frame   : Frame
  sentAt  : Nat
  rto     : Nat
  resends : Nat := 0
  deriving DecidableEq, Repr

/-- A message of a pair in its sender (R379): its command (none for a CANCEL), pair, type, MSG_SEQ once begun, segments sent
and in all, how long it waits on RNR (R380), and whether its sent record is written (R450). -/
structure TxMsg where
  cmd      : Option Nat
  src      : Nat
  dst      : Nat
  type     : Nat
  seq      : Option (BitVec 32) := none
  sent     : Nat := 0
  total    : Nat := 1
  rnrUntil : Option Nat := none
  rnrSince : Option Nat := none
  noted    : Bool := false
  deriving DecidableEq, Repr

/-- The oldest unfinished message of a pair in its receiver, once accepted (R376, R377): where its bytes go, with which
authority, the entry or buffer it uses, and the segments placed. -/
structure RxMsg where
  addr  : Nat
  asid  : Nat
  user  : Bool
  ep    : Nat
  key   : Nat
  kind  : Nat
  buf   : Option Nat := none
  got   : List Nat := []
  deriving DecidableEq, Repr

/-- A pair in its receiver (R379, R380): the MSG_SEQ of its oldest unfinished message, whether that message met RNR, and the
message once accepted; and the unfinished messages whose received record is written (R450), by type and MSG_SEQ. -/
structure RxPair where
  next : BitVec 32 := 0
  rnr  : Bool := false
  msg  : Option RxMsg := none
  noted : List (Nat × BitVec 32) := []
  deriving DecidableEq, Repr

/-- A port (R362 to R381): its link and keying, the sender (credits, window, PSN series, messages, aborts), the receiver (the
lowest PSN not placed, those placed beyond it, the frames held, the PSNs reported missing, its pairs) and its timers. -/
structure Port where
  phyUp     : Bool := false
  fast      : Bool := false
  nonce     : BitVec 256 := 0
  peerNonce : BitVec 256 := 0
  keyings   : Nat := 0
  assoc     : Nat := 0
  sak       : BitVec 352 := 0
  ssci      : Nat := 0
  pn        : Nat := 0
  downAt    : Option Nat := none
  sentHello : Bool := false
  gotHello  : Bool := false
  credits   : Nat := 0
  abortOut  : Bool := false
  cancelOut : Bool := false
  widen     : Nat := 0
  halvedAt  : Option Nat := none
  psn       : BitVec 32 := 0
  unacked   : List TxFrame := []
  msgs      : List TxMsg := []
  lastPair  : Nat := 0
  seqs      : Tbl (BitVec 32) := []
  aborts    : List (Nat × Nat × Bool) := []
  abortIn   : Option (Nat × Nat) := none
  rxAck     : BitVec 32 := 0
  rxDone    : List (BitVec 32) := []
  held      : List Frame := []
  naked     : List (BitVec 32) := []
  pairs     : Tbl RxPair := []
  freed     : Nat := 0
  ece       : Bool := false
  placed    : Nat := 0
  ackAt     : Option Nat := none
  lastRx    : Nat := 0
  lastTx    : Nat := 0
  lastHello : Nat := 0
  acked     : Nat := 0
  deriving DecidableEq, Repr

/-! ## The integrity block (chapter 12) -/

/-- An error record (R354); `count`, `time` and the fields in record order. -/
structure LogRec where
  kind     : Nat
  severity : Nat := 0
  part     : Option Nat := none
  core     : Nat := 31
  unit     : Nat := 0
  seq      : Nat := 0
  time     : Nat := 0
  queue    : Nat := 0xFFFFF
  submit   : Nat := 0
  status   : Nat := 0
  count    : Nat := 1
  address  : Nat := 0
  expected : Nat := 0
  observed : Nat := 0
  diag     : Nat := 0
  extra    : Nat := 0
  deriving DecidableEq, Repr

/-- The header of a crash-dump part (R351): trigger, dump number, times, whether debug was open, and its stack. -/
structure DumpPart where
  trigger : Nat
  id      : Nat
  time    : Nat
  stop    : Nat
  debug   : Bool
  stack   : Nat
  device  : Bool
  deriving DecidableEq, Repr

/-- Error logs by stack · 2¹⁶ + slot, records written per log since fundamental reset, the dump parts, and the Wingbeat
monitor's last sample (R344, R351, R354). -/
structure Ras where
  log     : Tbl (Option LogRec) := []
  seqs    : Tbl Nat := []
  dump    : List DumpPart := []
  dumpId  : Nat := 0
  wbLast  : Nat := 0
  derate  : Tbl Nat := []
  derateAt : Tbl Nat := []
  deriving DecidableEq, Repr

/-! ## The state -/

/-- The whole device. -/
structure State where
  pending : List Instr
  free    : Nat
  out     : List Out
  host    : Tbl Byte
  clk     : Clk
  fuses   : Fuses
  boot    : Boot
  regs    : Tbl Word
  fe      : FrontEnd
  mem     : Mem
  parts   : Tbl Part
  dtables : Tbl DTable
  cores   : Tbl CoreSt
  ports   : Tbl Port
  ras     : Ras
  mgmt    : Mgmt
  deriving DecidableEq, Repr

/-- The device right after reset: powered, in fundamental reset with PERST# low (R423), every register at its reset value,
nothing in flight, memory with nothing listed. -/
def State.reset : State where
  pending := []
  free := 0
  out := []
  host := []
  clk := {}
  fuses := {}
  boot := {}
  regs := []
  fe := {}
  mem := {}
  parts := []
  dtables := []
  cores := []
  ports := []
  ras := {}
  mgmt := {}

end Sys2Proof.Machine
end

