-- ==== Sys2Proof/Machine/Table.lean ====
section
/-!
DEFINITION. The operations of the sparse table, and the helpers that take numbers and bytes apart: bit fields, little-endian
byte lists (R7) and byte runs.
-/
namespace Sys2Proof

variable {α : Type}

/-- What the table reads at a key: the first listed value, or the default of that key. -/
def Tbl.get (d : Nat → α) : Tbl α → Nat → α
  | [], k => d k
  | (j, v) :: t, k => if j = k then v else Tbl.get d t k

/-- The table without a key. -/
def Tbl.erase (t : Tbl α) (k : Nat) : Tbl α := t.filter (fun e => e.1 != k)

/-- A new entry put at its place in rising key order. -/
def Tbl.insert (k : Nat) (v : α) : Tbl α → Tbl α
  | [] => [(k, v)]
  | (j, w) :: t => if k < j then (k, v) :: (j, w) :: t else (j, w) :: Tbl.insert k v t

/-- A write. Writing what an unlisted key reads as removes the entry, so equal contents are equal lists. -/
def Tbl.set [DecidableEq α] (d : Nat → α) (t : Tbl α) (k : Nat) (v : α) : Tbl α :=
  if v = d k then t.erase k else Tbl.insert k v (t.erase k)

/-- A write of what a function makes of the old value. -/
def Tbl.upd [DecidableEq α] (d : Nat → α) (t : Tbl α) (k : Nat) (f : α → α) : Tbl α :=
  t.set d k (f (t.get d k))

/-- The keys rise strictly. -/
def Tbl.rising : Tbl α → Bool
  | [] => true
  | [_] => true
  | (i, _) :: (j, w) :: t => decide (i < j) && Tbl.rising ((j, w) :: t)

/-- The canonical form: keys strictly rising, and no entry equal to its key's default. -/
def Tbl.wf [DecidableEq α] (d : Nat → α) (t : Tbl α) : Bool :=
  t.rising && t.all (fun e => decide (e.2 ≠ d e.1))

/-- Every key from `a` to `a + n - 1` back at its default. -/
def Tbl.clear (t : Tbl α) (a n : Nat) : Tbl α := t.filter (fun e => e.1 < a || a + n ≤ e.1)

/-- The `n` values from key `a` upward. -/
def Tbl.readN (d : Nat → α) (t : Tbl α) (a n : Nat) : List α :=
  (List.range n).map (fun i => t.get d (a + i))

/-- The listed values stored from key `a` upward. -/
def Tbl.writeN [DecidableEq α] (d : Nat → α) : Tbl α → Nat → List α → Tbl α
  | t, _, [] => t
  | t, a, v :: vs => Tbl.writeN d (t.set d a v) (a + 1) vs

/-- The field of `w` bits of the number `x` from bit `lo` upward. -/
def bits (x lo w : Nat) : Nat := x / 2 ^ lo % 2 ^ w

/-- One bit of a number. -/
def bitB (x i : Nat) : Bool := x / 2 ^ i % 2 == 1

/-- A Boolean as a bit. -/
def b2n (b : Bool) : Nat := if b then 1 else 0

/-- The number `x` with the field of `w` bits from bit `lo` replaced by `v`. -/
def setBits (x lo w v : Nat) : Nat :=
  x % 2 ^ lo + v % 2 ^ w * 2 ^ lo + x / 2 ^ (lo + w) * 2 ^ (lo + w)

/-- The number whose little-endian bytes these are (R7). -/
def leNat : List Byte → Nat
  | [] => 0
  | b :: bs => b.toNat + 256 * leNat bs

/-- The low `n` bytes of a number, little-endian (R7). -/
def leBytes : Nat → Nat → List Byte
  | 0, _ => []
  | n + 1, x => BitVec.ofNat 8 x :: leBytes n (x / 256)

/-- The number in `n` bytes of a byte list from byte `o`. -/
def num (bs : List Byte) (o n : Nat) : Nat := leNat ((bs.drop o).take n)

/-- The list extended with zero bytes, or cut, to `n` bytes. -/
def padTo (n : Nat) (bs : List Byte) : List Byte := bs.take n ++ List.replicate (n - bs.length) 0

/-- The list cut into pieces of `n`, the last possibly shorter; `fuel` bounds the number of pieces. -/
def chop {β : Type} (n : Nat) : Nat → List β → List (List β)
  | 0, _ => []
  | fuel + 1, l => if l.isEmpty then [] else l.take n :: chop n fuel (l.drop n)

/-- A quotient rounded up. -/
def ceilDiv (a b : Nat) : Nat := (a + b - 1) / b

/-- The larger multiple of `n` at or above `a`. -/
def alignUp (a n : Nat) : Nat := ceilDiv a n * n

/-- A saturating sum. -/
def satAdd (w x n : Nat) : Nat := min (x + n) (2 ^ w - 1)

/-- The positions of the bits that are 1 among the low `w`. -/
def ones (x w : Nat) : List Nat := (List.range w).filter (bitB x)

/-- The list with the element at `i` changed by `f`. -/
def modAt {β : Type} (l : List β) (i : Nat) (f : β → β) : List β :=
  match l, i with
  | [], _ => []
  | x :: xs, 0 => f x :: xs
  | x :: xs, i + 1 => x :: modAt xs i f

/-- A two's-complement number of `w` bits as an integer. -/
def sgn (w x : Nat) : Int := if x % 2 ^ w < 2 ^ (w - 1) then (x % 2 ^ w : Nat) else (x % 2 ^ w : Nat) - (2 ^ w : Nat)

/-- An integer as a two's-complement number of `w` bits. -/
def unsgn (w : Nat) (x : Int) : Nat := (x % (2 ^ w : Nat)).toNat

end Sys2Proof
end

