-- ==== Sys2Proof/Machine/Regs.lean ====
section
/-!
DEFINITION. The registers of BAR0 (R9 to R13): the rows of every register table of the spec with their access types, the
reset values, and how a field is read and written. The per-function front-end registers of function fn sit at key
fn · 2²⁶ + offset (R280).
-/
namespace Sys2Proof.Machine

/-- One row of a register table: base offset, up to two strides with their counts, the bits that store (RW, RWS) and the bits
that a 1 clears (RW1C). Every other bit ignores writes (R10). -/
structure RegRow where
  base : Nat
  s1 : Nat
  n1 : Nat
  s2 : Nat
  n2 : Nat
  rw : Nat
  w1c : Nat
  deriving DecidableEq, Repr

/-- The register tables of the chapters up to the queues. -/
def regTable1 : List RegRow := [
  ⟨0x0, 0x1, 1, 0x1, 1, 0x0, 0x0⟩,  -- R4: PART_NUMBER, STEP_MAJOR, STEP_MINOR, DEBUG_OPEN
  ⟨0x800400, 0x10000, 24, 0x1, 1, 0x0, 0x1f⟩,  -- R47: FLAGS
  ⟨0x800404, 0x10000, 24, 0x1, 1, 0x0, 0x0⟩,  -- R47: NAN_LOST_COUNT
  ⟨0x800408, 0x10000, 24, 0x1, 1, 0x0, 0x0⟩,  -- R47: ALIGN_LOSS_COUNT
  ⟨0x800200, 0x10000, 24, 0x1, 1, 0x0, 0x0⟩,  -- R102: ARRAYS_ACTIVE, TILES_HELD, PASS_BUSY
  ⟨0x800204, 0x10000, 24, 0x1, 1, 0xf, 0x0⟩,  -- R102: FENCE
  ⟨0x800300, 0x10000, 24, 0x1, 1, 0x0, 0x0⟩,  -- R138: SLOT0_ID, SLOT0_BUSY, SLOT0_VALID, SLOT1, SLOT2, SLOT3
  ⟨0x800304, 0x10000, 24, 0x1, 1, 0x0, 0x80000000⟩,  -- R138: BLOCK_INDEX, REASON, VALID
  ⟨0x800500, 0x10000, 24, 0x1, 1, 0x0, 0x0⟩,  -- R163: PC, BUSY, HANDLE
  ⟨0x800504, 0x10000, 24, 0x1, 1, 0x0, 0x0⟩,  -- R163: REPLAYS
  ⟨0x800508, 0x10000, 24, 0x1, 1, 0x1, 0x0⟩,  -- R163: FAULTY
  ⟨0x401000, 0x80000, 8, 0x1, 1, 0xf, 0x0⟩,  -- R202: POOL
  ⟨0x401004, 0x80000, 8, 0x1, 1, 0x0, 0x0⟩,  -- R202: FREE
  ⟨0x401008, 0x80000, 8, 0x1, 1, 0x0, 0x0⟩,  -- R202: EVICTABLE
  ⟨0x40100c, 0x80000, 8, 0x1, 1, 0x0, 0x0⟩,  -- R202: DEFERRALS
  ⟨0x401010, 0x80000, 8, 0x1, 1, 0x0, 0x0⟩,  -- R202: EVICTIONS
  ⟨0x401014, 0x80000, 8, 0x1, 1, 0x0, 0x0⟩,  -- R202: STAMP
  ⟨0x800600, 0x10000, 24, 0x1, 1, 0x0, 0x80000000⟩,  -- R202: PAGE, VALID
  ⟨0x800604, 0x10000, 24, 0x1, 1, 0x0, 0x0⟩,  -- R202: REPLAYS
  ⟨0x800608, 0x10000, 24, 0x1, 1, 0x1, 0x0⟩,  -- R202: FAULTY
  ⟨0x300000, 0x1000, 8, 0x1, 1, 0x0, 0x0⟩,  -- R231: RATE, EXCLUDED, RETRAIN, KEY, KEY_VALID, ZEROED
  ⟨0x300004, 0x1000, 8, 0x1, 1, 0x0, 0x0⟩,  -- R231: CE_COUNT
  ⟨0x300008, 0x1000, 8, 0x1, 1, 0x0, 0x0⟩,  -- R231: UE_COUNT
  ⟨0x30000c, 0x1000, 8, 0x1, 1, 0x0, 0x0⟩,  -- R231: ERR_OFFSET_LO
  ⟨0x300010, 0x1000, 8, 0x1, 1, 0x0, 0x80000000⟩,  -- R231: ERR_OFFSET_HI, UE, VALID
  ⟨0x300014, 0x1000, 8, 0x1, 1, 0xffff, 0x0⟩,  -- R231: DERATE_THRESH
  ⟨0x300018, 0x1000, 8, 0x1, 1, 0x0, 0x0⟩,  -- R231: SCRUB_DONE, SCRUB_BUSY
  ⟨0x200000, 0x100, 8, 0x1, 1, 0x0, 0x0⟩,  -- R232: DVA_LO
  ⟨0x200004, 0x100, 8, 0x1, 1, 0x0, 0x0⟩,  -- R232: DVA_HI
  ⟨0x200008, 0x100, 8, 0x1, 1, 0x0, 0x80000000⟩,  -- R232: ASID, CAUSE, WRITE, SOURCE, VALID
  ⟨0x20000c, 0x100, 8, 0x1, 1, 0x0, 0x0⟩,  -- R232: FAULTS
  ⟨0x100000, 0x1, 1, 0x1, 1, 0xfffff000, 0x0⟩,  -- R280: SQ_ADDR_LO
  ⟨0x100004, 0x1, 1, 0x1, 1, 0xffffffff, 0x0⟩,  -- R280: SQ_ADDR_HI
  ⟨0x100008, 0x1, 1, 0x1, 1, 0xfffff000, 0x0⟩,  -- R280: CQ_ADDR_LO
  ⟨0x10000c, 0x1, 1, 0x1, 1, 0xffffffff, 0x0⟩,  -- R280: CQ_ADDR_HI
  ⟨0x100010, 0x1, 1, 0x1, 1, 0x7fff1f1f, 0x0⟩,  -- R280: SQ_SIZE_LOG2, CQ_SIZE_LOG2, VECTOR, PARTITION, ENABLE, READY
  ⟨0x100014, 0x1, 1, 0x1, 1, 0x0, 0x0⟩,  -- R280: ADMIN_STATUS
  ⟨0x100020, 0x1, 1, 0x1, 1, 0x0, 0x0⟩,  -- R280: SPEED, WIDTH, FLIT, IDE_LIVE
  ⟨0x100024, 0x1, 1, 0x1, 1, 0x0, 0x0⟩,  -- R280: DB_DROPS
  ⟨0x100100, 0x10, 8, 0x1, 1, 0x0, 0x0⟩  -- R280: QBASE, QCOUNT
  ]

/-- The register tables from the partitions to the ports. -/
def regTable2 : List RegRow := [
  ⟨0x100104, 0x10, 8, 0x1, 1, 0x0, 0x0⟩,  -- R280: CQBASE, CQCOUNT
  ⟨0x100200, 0x1, 1, 0x1, 1, 0x1ff000f, 0x0⟩,  -- R280: PARTITION, ENABLE, BASE
  ⟨0x100204, 0x1, 1, 0x1, 1, 0x1ff, 0x0⟩,  -- R280: IDE_REQUIRED
  ⟨0x400000, 0x80000, 8, 0x1, 1, 0x0, 0x0⟩,  -- R333: STATE, STEP_OPEN, FIRST_SLICE, SIZE_LOG2, PORTS, HOST_WINDOW, EPOCH
  ⟨0x400004, 0x80000, 8, 0x1, 1, 0x0, 0x0⟩,  -- R333: IN_SERVICE, EXCLUDED
  ⟨0x400008, 0x80000, 8, 0x1, 1, 0x0, 0x0⟩,  -- R333: STEP_LO
  ⟨0x40000c, 0x80000, 8, 0x1, 1, 0x0, 0x0⟩,  -- R333: STEP_HI
  ⟨0x400010, 0x80000, 8, 0x1, 1, 0x0, 0x0⟩,  -- R333: DRAIN_US, DRAIN_ENDED
  ⟨0x400014, 0x80000, 8, 0x1, 1, 0x0, 0x0⟩,  -- R333: SLOT0_VALID, SLOT1_VALID, SWITCH_US
  ⟨0x400018, 0x80000, 8, 0x1, 1, 0x0, 0x0⟩,  -- R333: STALE_DROPS
  ⟨0x1500000, 0x1, 1, 0x1, 1, 0x0, 0x1a⟩,  -- R361: WB_ARMED, HANG, FW_ABSENT, PENDING, DUMP_VALID, DUMP_STACK, DUMPS_SKIP
  ⟨0x1500004, 0x1, 1, 0x1, 1, 0x0, 0x0⟩,  -- R361: COUNT
  ⟨0x1500008, 0x1, 1, 0x1, 1, 0x0, 0x0⟩,  -- R361: MISSED
  ⟨0x150000c, 0x1, 1, 0x1, 1, 0x0, 0x0⟩,  -- R361: COUNT
  ⟨0x1500010, 0x1, 1, 0x1, 1, 0x800007ff, 0x0⟩,  -- R361: VECTOR, ENABLE
  ⟨0x1500014, 0x1, 1, 0x1, 1, 0xffff, 0x0⟩,  -- R361: THRESH
  ⟨0x1500018, 0x1, 1, 0x1, 1, 0xffff, 0x0⟩,  -- R361: MS
  ⟨0x150001c, 0x1, 1, 0x1, 1, 0x0, 0x0⟩,  -- R361: RESTART
  ⟨0x1500020, 0x1, 1, 0x1, 1, 0xffffff, 0x0⟩,  -- R361: STACK, REGION, UNIT
  ⟨0x1500040, 0x4, 16, 0x1, 1, 0x0, 0x0⟩,  -- R361: DATA
  ⟨0x1500100, 0x4, 8, 0x1, 1, 0x0, 0x0⟩,  -- R361: NEXT, LOST
  ⟨0x1500200, 0x10, 8, 0x1, 1, 0x0, 0x0⟩,  -- R361: JOB_ID, JOB_EPOCH
  ⟨0x1500204, 0x10, 8, 0x1, 1, 0x0, 0x0⟩,  -- R361: ACTIVE, ABORTED, ORIGIN, ARRIVAL, DUPLICATES
  ⟨0x1500208, 0x10, 8, 0x1, 1, 0x0, 0x0⟩,  -- R361: REPLAYED, SEVERE
  ⟨0x1500400, 0x4, 24, 0x1, 1, 0x1, 0x0⟩,  -- R361: FAULTY
  ⟨0x1000000, 0x100000, 4, 0x1, 1, 0x0, 0x0⟩,  -- R389: LINK, PEER_READY, OWNED, OWNER, PEER_OWNED, PEER_EPOCH
  ⟨0x1000004, 0x100000, 4, 0x1, 1, 0xffff03ff, 0x0⟩,  -- R389: ALLOW_200, ALLOW_100, IPV6, ECN, DSCP, RETRAIN, UDP_PORT
  ⟨0x1000008, 0x100000, 4, 0x1, 1, 0xffffffff, 0x0⟩,  -- R389: MAC_LO
  ⟨0x100000c, 0x100000, 4, 0x1, 1, 0xffff, 0x0⟩,  -- R389: MAC_HI
  ⟨0x1000010, 0x100000, 4, 0x1, 1, 0xffffffff, 0x0⟩,  -- R389: PEER_MAC_LO
  ⟨0x1000014, 0x100000, 4, 0x1, 1, 0xffff, 0x0⟩,  -- R389: PEER_MAC_HI
  ⟨0x1000020, 0x100000, 4, 0x4, 4, 0xffffffff, 0x0⟩,  -- R389: LOCAL_IP_i
  ⟨0x1000030, 0x100000, 4, 0x4, 4, 0xffffffff, 0x0⟩,  -- R389: PEER_IP_i
  ⟨0x1000040, 0x100000, 4, 0x1, 1, 0xff0fff, 0x0⟩,  -- R389: RTO_US, RETRY_LIMIT, RNR_US
  ⟨0x1000044, 0x100000, 4, 0x1, 1, 0x0, 0x0⟩,  -- R389: RATE, CWND
  ⟨0x1000048, 0x100000, 4, 0x1, 1, 0x0, 0x0⟩,  -- R389: EPOCH_DROPS
  ⟨0x100004c, 0x100000, 4, 0x1, 1, 0x0, 0x0⟩,  -- R389: JOB_DROPS
  ⟨0x1000050, 0x100000, 4, 0x1, 1, 0x0, 0x0⟩,  -- R389: UNOWNED_DROPS
  ⟨0x1000054, 0x100000, 4, 0x1, 1, 0x0, 0x0⟩,  -- R389: MACSEC_DROPS
  ⟨0x1000058, 0x100000, 4, 0x1, 1, 0x0, 0x0⟩  -- R389: RETRANSMITS
  ]

/-- The register tables of the security block, clocks, debug and management. -/
def regTable3 : List RegRow := [
  ⟨0x100005c, 0x100000, 4, 0x1, 1, 0x0, 0x0⟩,  -- R389: RNR_SENT
  ⟨0x1000060, 0x100000, 4, 0x1, 1, 0x0, 0x0⟩,  -- R389: REFUSED
  ⟨0x1000064, 0x100000, 4, 0x1, 1, 0x0, 0x0⟩,  -- R389: OTHER_DROPS
  ⟨0x1000080, 0x100000, 4, 0x4, 4, 0x0, 0x0⟩,  -- R389: PEER_TAG_i
  ⟨0x1700000, 0x1, 1, 0x1, 1, 0x0, 0x0⟩,  -- R416: STATE, ERROR, ATTEMPTS, CERT_OK, HANDOVER
  ⟨0x1700004, 0x1, 1, 0x1, 1, 0xffffffc0, 0x0⟩,  -- R416: ADDR_LO
  ⟨0x1700008, 0x1, 1, 0x1, 1, 0xffffffff, 0x0⟩,  -- R416: ADDR_HI
  ⟨0x170000c, 0x1, 1, 0x1, 1, 0x7ffffff, 0x0⟩,  -- R416: BYTES
  ⟨0x1700010, 0x1, 1, 0x1, 1, 0xffffffff, 0x0⟩,  -- R416: ADDR_LO
  ⟨0x1700014, 0x1, 1, 0x1, 1, 0xffffffff, 0x0⟩,  -- R416: ADDR_HI
  ⟨0x1700018, 0x1, 1, 0x1, 1, 0x1ffff, 0x0⟩,  -- R416: BYTES
  ⟨0x170001c, 0x1, 1, 0x1, 1, 0x0, 0x0⟩,  -- R416: GO
  ⟨0x1700020, 0x1, 1, 0x1, 1, 0x0, 0x0⟩,  -- R416: DEBUG_AT_BOOT, DEBUG_NOW, KEYS_PROGRAMMED, KEY_REVOKED, MIN_SVN, KEY_S
  ⟨0x1700024, 0x1, 1, 0x1, 1, 0x0, 0x0⟩,  -- R416: SVN, RESTARTS
  ⟨0x1700028, 0x1, 1, 0x1, 1, 0x0, 0x0⟩,  -- R416: CLOSE
  ⟨0x1700100, 0x20, 4, 0x4, 8, 0x0, 0x0⟩,  -- R416: MR
  ⟨0x1700180, 0x4, 8, 0x1, 1, 0x0, 0x0⟩,  -- R416: DIGEST
  ⟨0x17001a0, 0x4, 8, 0x1, 1, 0x0, 0x0⟩,  -- R416: DIGEST
  ⟨0x1700200, 0x20, 8, 0x4, 8, 0x0, 0x0⟩,  -- R416: PMR
  ⟨0x1700300, 0x4, 8, 0x1, 1, 0x0, 0x0⟩,  -- R416: SLOTS, KEM_VALID, SETS, SEALED
  ⟨0x10, 0x1, 1, 0x1, 1, 0x0, 0x0⟩,  -- R439: TIME_LO
  ⟨0x14, 0x1, 1, 0x1, 1, 0x0, 0x0⟩,  -- R439: TIME_HI
  ⟨0x20, 0x1, 1, 0x1, 1, 0x0, 0x0⟩,  -- R439: THROTTLE, CORE_LOCK, HBM_LOCK, ETH_LOCK
  ⟨0x40, 0x1, 1, 0x1, 1, 0xffffffff, 0x0⟩,  -- R439: STOP_LO
  ⟨0x44, 0x1, 1, 0x1, 1, 0xffffffff, 0x0⟩,  -- R439: STOP_HI
  ⟨0x48, 0x1, 1, 0x1, 1, 0x30, 0x0⟩,  -- R439: ARM, CANCEL, RESUME, RESET, ACTION
  ⟨0x4c, 0x1, 1, 0x1, 1, 0x0, 0x48⟩,  -- R439: STATE, CANCEL_LATE, DUMPED, SOURCE, REFUSED, ABSENT_STACKS, ABSENT_POR
  ⟨0x50, 0x1, 1, 0x1, 1, 0x0, 0x0⟩,  -- R439: RESUME_LO
  ⟨0x54, 0x1, 1, 0x1, 1, 0x0, 0x0⟩,  -- R439: RESUME_HI
  ⟨0x58, 0x1, 1, 0x1, 1, 0x0, 0x0⟩,  -- R439: SPAN_NS, FRAME_SPAN_NS
  ⟨0x5c, 0x1, 1, 0x1, 1, 0x0, 0x0⟩,  -- R439: DROPS
  ⟨0x60, 0x1, 1, 0x1, 1, 0x0, 0x0⟩,  -- R439: WARM, HOT
  ⟨0x1600000, 0x400, 24, 0x10, 16, 0xff0fff, 0x0⟩,  -- R459: EVENT, MODE, CHAIN, ENABLE, QUALIFIER
  ⟨0x1600004, 0x400, 24, 0x10, 16, 0xffffffff, 0x0⟩,  -- R459: COUNT_LO
  ⟨0x1600008, 0x400, 24, 0x10, 16, 0xffff, 0x80000000⟩,  -- R459: COUNT_HI, OVF
  ⟨0x1608000, 0x40, 8, 0x1, 1, 0x0, 0x0⟩,  -- R459: STATE, TRIGGERS_IGNORED
  ⟨0x1608004, 0x40, 8, 0x1, 1, 0x0, 0x0⟩,  -- R459: LOST
  ⟨0x1608008, 0x40, 8, 0x1, 1, 0x0, 0x0⟩,  -- R459: INDEX_LO
  ⟨0x160800c, 0x40, 8, 0x1, 1, 0x0, 0x0⟩,  -- R459: INDEX_HI
  ⟨0x1608010, 0x40, 8, 0x1, 1, 0x0, 0x0⟩,  -- R459: FIRE
  ⟨0x1608014, 0x40, 8, 0x1, 1, 0x0, 0x0⟩,  -- R459: DEFER_US
  ⟨0x1608018, 0x40, 8, 0x1, 1, 0x0, 0xff00⟩,  -- R459: ARMED, FIRED
  ⟨0x1800000, 0x1, 1, 0x1, 1, 0x0, 0x0⟩,  -- R473: TJ
  ⟨0x1800004, 0x1, 1, 0x1, 1, 0x0, 0x0⟩,  -- R473: TOTAL
  ⟨0x1800008, 0x1, 1, 0x1, 1, 0xfffff, 0x0⟩,  -- R473: THROTTLE_T, WARN_T, HYST
  ⟨0x180000c, 0x1, 1, 0x1, 1, 0x7ff, 0x0⟩,  -- R473: LIMIT_W
  ⟨0x1800010, 0x1, 1, 0x1, 1, 0x0, 0x7f⟩,  -- R473: CAUSES
  ⟨0x1800014, 0x1, 1, 0x1, 1, 0x7f, 0x0⟩,  -- R473: ENABLE
  ⟨0x1800018, 0x1, 1, 0x1, 1, 0x0, 0x0⟩,  -- R473: SMB_ADDR, I3C_ACTIVE, I3C_DYN_ADDR, EID
  ⟨0x8, 0x1, 1, 0x1, 1, 0x0, 0x0⟩,  -- R494: HOST_WINDOW, SMB_ADDR, PCIE_SEPREF
  ⟨0x70, 0x1, 1, 0x1, 1, 0x0, 0x3ff0000⟩  -- R494: PGOOD, BROWNOUT
  ]

/-- Every register with a row in a register table of the spec, but for the doorbells, MSI-X tables and window data. -/
def regTable : List RegRow := regTable1 ++ regTable2 ++ regTable3

/-- Whether an offset is one of a row's registers. -/
def RegRow.has (r : RegRow) (off : Nat) : Bool :=
  (List.range r.n1).any (fun i => r.base + i * r.s1 ≤ off && off < r.base + i * r.s1 + r.n2 * r.s2 &&
    (off - (r.base + i * r.s1)) % r.s2 == 0) && (r.s2 != 1 || r.n2 == 1)

/-- The row of an offset, if it holds a register (R9). -/
def regRow? (off : Nat) : Option RegRow := regTable.find? (fun r => r.has off)

/-- The MSI-X table of a function: 2,048 vectors of 16 bytes (R280). -/
def msixBase : Nat := 0x108000
/-- The MSI-X pending-bit array of a function (R280). -/
def pbaBase : Nat := 0x110000

/-- Whether an offset is decoded separately in each function's view (R280). -/
def perFn (off : Nat) : Bool := (0x100000 ≤ off && off < 0x100028) || (msixBase ≤ off && off < 0x110100)

/-- The key under which a function's access to an offset is kept. -/
def regKey (fn off : Nat) : Nat := if perFn off then fn * 2 ^ 26 + off else off

/-- The reset value of a register (the Reset column of the register tables; PRESUMED for the MSI-X vector control, log
entry 18). Fuse and strap fields are loaded by the boot events. -/
def regReset (key : Nat) : Word :=
  let off := key % 2 ^ 26
  if off = 0 then 0x08241100
  else if 0x108000 ≤ off ∧ off < 0x110000 ∧ off % 16 = 12 then 1
  else if 0x300000 ≤ off ∧ off < 0x308000 ∧ off % 0x1000 = 0 then 3
  else if 0x300000 ≤ off ∧ off < 0x308000 ∧ off % 0x1000 = 0x14 then 0x100
  else if 0x800000 ≤ off ∧ off < 0x980000 ∧ off % 0x10000 = 0x200 then 0xF
  else if 0x1000000 ≤ off ∧ off < 0x1400000 ∧ off % 0x100000 = 4 then 0x4AA801AB
  else if 0x1000000 ≤ off ∧ off < 0x1400000 ∧ off % 0x100000 = 0x40 then 0x80710
  else if off = 0x1500000 then 4
  else if off = 0x1500014 then 0x40
  else if off = 0x1500018 then 0xA
  else if off = 0x1800008 then 0x35A5F
  else if off = 0x180000C then 0x4B0
  else if off = 0x1800014 then 0x7F
  else if off = 0x70 then 0x3FF
  else 0

/-! ## Named offsets -/

def Reg.gctlId : Nat := 0x0
def Reg.straps : Nat := 0x8
def Reg.timeLo : Nat := 0x10
def Reg.timeHi : Nat := 0x14
def Reg.clkStatus : Nat := 0x20
def Reg.stopLo : Nat := 0x40
def Reg.stopHi : Nat := 0x44
def Reg.stopCtl : Nat := 0x48
def Reg.stopStatus : Nat := 0x4C
def Reg.resumeLo : Nat := 0x50
def Reg.resumeHi : Nat := 0x54
def Reg.stopSpan : Nat := 0x58
def Reg.stopDrops : Nat := 0x5C
def Reg.resets : Nat := 0x60
def Reg.pwr : Nat := 0x70
def Reg.adminSqLo : Nat := 0x100000
def Reg.adminSqHi : Nat := 0x100004
def Reg.adminCqLo : Nat := 0x100008
def Reg.adminCqHi : Nat := 0x10000C
def Reg.adminCtl : Nat := 0x100010
def Reg.adminStatus : Nat := 0x100014
def Reg.feLink : Nat := 0x100020
def Reg.dbDrops : Nat := 0x100024
def Reg.qbase (p : Nat) : Nat := 0x100100 + p * 0x10
def Reg.cqbase (p : Nat) : Nat := 0x100104 + p * 0x10
def Reg.bar4 : Nat := 0x100200
def Reg.ideRequired : Nat := 0x100204
def Reg.mmuLo (p : Nat) : Nat := 0x200000 + p * 0x100
def Reg.mmuHi (p : Nat) : Nat := 0x200004 + p * 0x100
def Reg.mmuCause (p : Nat) : Nat := 0x200008 + p * 0x100
def Reg.mmuFaults (p : Nat) : Nat := 0x20000C + p * 0x100
def Reg.memStatus (n : Nat) : Nat := 0x300000 + n * 0x1000
def Reg.memCe (n : Nat) : Nat := 0x300004 + n * 0x1000
def Reg.memUe (n : Nat) : Nat := 0x300008 + n * 0x1000
def Reg.memErrLo (n : Nat) : Nat := 0x30000C + n * 0x1000
def Reg.memErrHi (n : Nat) : Nat := 0x300010 + n * 0x1000
def Reg.memThresh (n : Nat) : Nat := 0x300014 + n * 0x1000
def Reg.memScrub (n : Nat) : Nat := 0x300018 + n * 0x1000
def Reg.part (p : Nat) : Nat := 0x400000 + p * 0x80000
def Reg.partStacks (p : Nat) : Nat := 0x400004 + p * 0x80000
def Reg.stepLo (p : Nat) : Nat := 0x400008 + p * 0x80000
def Reg.stepHi (p : Nat) : Nat := 0x40000C + p * 0x80000
def Reg.partDrain (p : Nat) : Nat := 0x400010 + p * 0x80000
def Reg.partSwitch (p : Nat) : Nat := 0x400014 + p * 0x80000
def Reg.staleDrops (p : Nat) : Nat := 0x400018 + p * 0x80000
def Reg.kvPool (p : Nat) : Nat := 0x401000 + p * 0x80000
def Reg.arrayStatus (n : Nat) : Nat := 0x800200 + n * 0x10000
def Reg.arrayFence (n : Nat) : Nat := 0x800204 + n * 0x10000
def Reg.slots (n : Nat) : Nat := 0x800300 + n * 0x10000
def Reg.decodeErr (n : Nat) : Nat := 0x800304 + n * 0x10000
def Reg.numFlags (n : Nat) : Nat := 0x800400 + n * 0x10000
def Reg.nanLost (n : Nat) : Nat := 0x800404 + n * 0x10000
def Reg.alignLoss (n : Nat) : Nat := 0x800408 + n * 0x10000
def Reg.vecStatus (n : Nat) : Nat := 0x800500 + n * 0x10000
def Reg.vecReplays (n : Nat) : Nat := 0x800504 + n * 0x10000
def Reg.vecFault (n : Nat) : Nat := 0x800508 + n * 0x10000
def Reg.attErr (n : Nat) : Nat := 0x800600 + n * 0x10000
def Reg.attReplays (n : Nat) : Nat := 0x800604 + n * 0x10000
def Reg.attFault (n : Nat) : Nat := 0x800608 + n * 0x10000
def Reg.net (n o : Nat) : Nat := 0x1000000 + n * 0x100000 + o
def Reg.ras : Nat := 0x1500000
def Reg.wingbeat : Nat := 0x1500004
def Reg.missed : Nat := 0x1500008
def Reg.barErrors : Nat := 0x150000C
def Reg.rasIrq : Nat := 0x1500010
def Reg.replayThresh : Nat := 0x1500014
def Reg.watchdog : Nat := 0x1500018
def Reg.rasWindow : Nat := 0x1500020
def Reg.windowData : Nat := 0x1500040
def Reg.logNext (n : Nat) : Nat := 0x1500100 + n * 4
def Reg.job (p : Nat) : Nat := 0x1500200 + p * 0x10
def Reg.abort (p : Nat) : Nat := 0x1500204 + p * 0x10
def Reg.partEvents (p : Nat) : Nat := 0x1500208 + p * 0x10
def Reg.dmaFault (n : Nat) : Nat := 0x1500400 + n * 4
def Reg.ctrCfg (n k : Nat) : Nat := 0x1600000 + n * 0x400 + k * 0x10
def Reg.ctrLo (n k : Nat) : Nat := 0x1600004 + n * 0x400 + k * 0x10
def Reg.ctrHi (n k : Nat) : Nat := 0x1600008 + n * 0x400 + k * 0x10
def Reg.traceStatus (p : Nat) : Nat := 0x1608000 + p * 0x40
def Reg.traceLost (p : Nat) : Nat := 0x1608004 + p * 0x40
def Reg.traceLo (p : Nat) : Nat := 0x1608008 + p * 0x40
def Reg.traceHi (p : Nat) : Nat := 0x160800C + p * 0x40
def Reg.obsDefer (p : Nat) : Nat := 0x1608014 + p * 0x40
def Reg.watch (p : Nat) : Nat := 0x1608018 + p * 0x40
def Reg.secStatus : Nat := 0x1700000
def Reg.imgLo : Nat := 0x1700004
def Reg.imgHi : Nat := 0x1700008
def Reg.imgBytes : Nat := 0x170000C
def Reg.certLo : Nat := 0x1700010
def Reg.certHi : Nat := 0x1700014
def Reg.certBytes : Nat := 0x1700018
def Reg.fuseState : Nat := 0x1700020
def Reg.secFw : Nat := 0x1700024
def Reg.mr (m w : Nat) : Nat := 0x1700100 + m * 0x20 + w * 4
def Reg.pmr (p w : Nat) : Nat := 0x1700200 + p * 0x20 + w * 4
def Reg.secPart (p : Nat) : Nat := 0x1700300 + p * 4
def Reg.mbxTj : Nat := 0x1800000
def Reg.mbxPower : Nat := 0x1800004
def Reg.mbxTherm : Nat := 0x1800008
def Reg.mbxLimit : Nat := 0x180000C
def Reg.alerts : Nat := 0x1800010
def Reg.alertEnable : Nat := 0x1800014
def Reg.mbxLink : Nat := 0x1800018

/-! ## Reading and writing -/

/-- The value a register holds. -/
def State.reg (s : State) (k : Nat) : Word := s.regs.get regReset k

/-- The state with a register holding `v`. -/
def State.setReg (s : State) (k : Nat) (v : Word) : State := { s with regs := s.regs.set regReset k v }

/-- The identity that a function's configuration space shows (R4, R252): Vendor ID, Device ID, class code and Revision ID. -/
def State.pciId (s : State) (fn : Nat) : Nat × Nat × Nat × Nat :=
  (0x1EE9, if fn = 0 then 0x0824 else 0x0825, 0x120000, bits (s.reg Reg.gctlId).toNat 8 8)

/-- A field of a register as a number. -/
def State.fld (s : State) (k lo w : Nat) : Nat := bits (s.reg k).toNat lo w

/-- The state with a register's field set. -/
def State.setFld (s : State) (k lo w v : Nat) : State :=
  s.setReg k (BitVec.ofNat 32 (setBits (s.reg k).toNat lo w v))

/-- The state with a register's field counted up by `n`, saturating at all ones. -/
def State.bump (s : State) (k lo w n : Nat) : State := s.setFld k lo w (satAdd w (s.fld k lo w) n)

/-- A register pair as one 64-bit number. -/
def State.reg64 (s : State) (lo hi : Nat) : Nat := (s.reg lo).toNat + 2 ^ 32 * (s.reg hi).toNat

/-- A register pair written from one 64-bit number. -/
def State.setReg64 (s : State) (lo hi v : Nat) : State :=
  (s.setReg lo (BitVec.ofNat 32 v)).setReg hi (BitVec.ofNat 32 (v / 2 ^ 32))

/-- The registers of `n` bytes from offset `a` back at their reset values. -/
def State.clearRegs (s : State) (a n : Nat) : State := { s with regs := s.regs.clear a n }

/-- What a generic write leaves in a register (R10): the RW bits stored, the RW1C bits written 1 cleared. -/
def regWrite (old rw w1c v : Word) : Word := ((old &&& ~~~rw) ||| (v &&& rw)) &&& ~~~(v &&& w1c)

/-! ## The tables of State -/

def State.part (s : State) (p : Nat) : Part := s.parts.get (fun _ => {}) p
def State.updPart (s : State) (p : Nat) (f : Part → Part) : State :=
  { s with parts := s.parts.upd (fun _ => {}) p f }
def State.core (s : State) (c : Nat) : CoreSt := s.cores.get (fun _ => {}) c
def State.updCore (s : State) (c : Nat) (f : CoreSt → CoreSt) : State :=
  { s with cores := s.cores.upd (fun _ => {}) c f }
def State.sq (s : State) (q : Nat) : SqCtx := s.fe.sqs.get (fun _ => {}) q
def State.updSq (s : State) (q : Nat) (f : SqCtx → SqCtx) : State :=
  { s with fe := { s.fe with sqs := s.fe.sqs.upd (fun _ => {}) q f } }
def State.cq (s : State) (c : Nat) : CqCtx := s.fe.cqs.get (fun _ => {}) c
def State.updCq (s : State) (c : Nat) (f : CqCtx → CqCtx) : State :=
  { s with fe := { s.fe with cqs := s.fe.cqs.upd (fun _ => {}) c f } }
def State.port (s : State) (n : Nat) : Port := s.ports.get (fun _ => {}) n
def State.updPort (s : State) (n : Nat) (f : Port → Port) : State :=
  { s with ports := s.ports.upd (fun _ => {}) n f }
def State.dtab (s : State) (t : Nat) : DTable := s.dtables.get (fun _ => {}) t
def State.updDtab (s : State) (t : Nat) (f : DTable → DTable) : State :=
  { s with dtables := s.dtables.upd (fun _ => {}) t f }

/-- The clock's time, in ns (R31). -/
def State.now (s : State) : Nat := s.clk.time

/-- Time moved forward to `t`; it never goes back (R420, log entry 1). -/
def State.atTime (s : State) (t : Nat) : State := { s with clk := { s.clk with time := max s.clk.time t } }

/-- One TCLK period (R420): the timestamp counts while TCLK runs, which a warm reset does not stop (R470, R487, R488). -/
def State.tick (s : State) : State :=
  if s.clk.powered && !s.clk.tripped && !s.clk.perst && s.clk.heldBy / 32 % 16 == 0 then
    { s with clk := { s.clk with time := s.clk.time + 1 } }
  else s

/-- The next free value's number (log entry 7). -/
def State.draw (s : State) : State := { s with free := s.free + 1 }

/-- A message sent. -/
def State.emit (s : State) (o : Out) : State := { s with out := s.out ++ [o] }

end Sys2Proof.Machine
end

