-- ==== Sys2Proof/Machine/Access.lean ====
section
/-!
DEFINITION. How an address becomes bytes: the slices and stacks of a partition (R19 to R22), the interleave (R206), the
translation of device virtual addresses (R219 to R223), poison (R211 to R214), sealed ranges (R414), and reads and writes of
HBM, SRAM and host memory in 64-byte units (R246).
-/
namespace Sys2Proof.Machine

/-! ## Partitions, slices, cores -/

/-- The state code of a partition (R333): 0 absent, 1 configuring, 2 active, 3 switching, 4 draining, 5 scrubbing. -/
def State.pstate (s : State) (p : Nat) : Nat := s.fld (Reg.part p) 0 3
/-- The first slice of a partition. -/
def State.firstSlice (s : State) (p : Nat) : Nat := s.fld (Reg.part p) 4 3
/-- The number of slices of a partition (R20). -/
def State.nSlices (s : State) (p : Nat) : Nat := 2 ^ s.fld (Reg.part p) 7 2
/-- The partition's epoch (R328). -/
def State.epoch (s : State) (p : Nat) : Nat := s.fld (Reg.part p) 24 8
/-- Whether a partition is configured: it holds its slices (R327, R331). -/
def State.configured (s : State) (p : Nat) : Bool := 2 ≤ s.pstate p && s.pstate p ≤ 3
/-- Whether a slice belongs to partition `p`: the partition is not absent and the slice is in its range (R20). -/
def State.ownsSlice (s : State) (p sl : Nat) : Bool :=
  s.pstate p != 0 && s.firstSlice p ≤ sl && sl < s.firstSlice p + s.nSlices p
/-- The partition that holds a slice. -/
def State.sliceOwner (s : State) (sl : Nat) : Option Nat := (List.range 8).find? (fun p => s.ownsSlice p sl)
/-- The partition that holds a core (R19). -/
def State.coreOwner (s : State) (c : Nat) : Option Nat := s.sliceOwner (c / 3)
/-- The partition that holds a port (R21); a partition being configured has not been given its ports yet (R319). -/
def State.portOwner (s : State) (n : Nat) : Option Nat :=
  (List.range 8).find? (fun p => 2 ≤ s.pstate p && bitB (s.fld (Reg.part p) 9 4) n)
/-- The slices of a partition. -/
def State.slicesOf (s : State) (p : Nat) : List Nat := (List.range (s.nSlices p)).map (s.firstSlice p + ·)
/-- The cores of a partition in ascending order (R19). -/
def State.coresOf (s : State) (p : Nat) : List Nat :=
  (List.range (3 * s.nSlices p)).map (3 * s.firstSlice p + ·)
/-- The stacks in service of a partition, ascending (R206). -/
def State.stacksOf (s : State) (p : Nat) : List Nat := ones (s.fld (Reg.partStacks p) 0 8) 8
/-- The cores a 32-bit core mask names; 0 names every core of the partition (R299). -/
def State.coreMask (s : State) (p mask : Nat) : List Nat :=
  if mask = 0 then s.coresOf p else ones mask 32

/-- Bytes of a stack that belong to software: 47.5 GiB (R204). -/
def usable : Nat := 0xBE0000000
/-- Where stack `st` starts in the device physical address space (R204). -/
def stackBase (st : Nat) : Nat := st * 0x1000000000

/-- The device physical address of a partition physical address (R206); none beyond the partition's memory. -/
def State.dpaOf (s : State) (p ppa : Nat) : Option Nat :=
  let st := s.stacksOf p
  let m := st.length
  let c := ppa / 512
  let r := c / m
  if ppa < m * usable then
    (st[(c % m + r / 1024) % m]?).map (fun sn => stackBase sn + r * 512 + ppa % 512)
  else none

/-- Whether a stack is offline (R207). -/
def State.offline (s : State) (st : Nat) : Bool := s.fld (Reg.memStatus st) 0 2 == 3

/-! ## Who accesses, and how an access fails -/

/-- The authority of an access: partition, address space, user queue (R223), the core or 31 for the front end (R232),
whether host pages may be reached (R223), the command number that decides which mappings it sees (R222), the epoch its
writes carry (R329), and the right to read sealed ranges (R414). -/
structure Acc where
  part     : Nat
  asid     : Nat
  user     : Bool := false
  source   : Nat := 31
  hostOk   : Bool := false
  since    : Nat := 0
  epoch    : Nat := 0
  fn       : Nat := 0
  sealedRd : Bool := false
  deriving DecidableEq, Repr

/-- A failed access: the status that ends its command, where it fell, and the bad word if one was met (R213, R223). -/
structure AccErr where
  status : Nat
  part   : Nat := 0
  asid   : Nat := 0
  dva    : Nat := 0
  write  : Bool := false
  source : Nat := 31
  dpa    : Option Nat := none
  sram   : Option Nat := none
  deriving DecidableEq, Repr

/-- Where a translated byte lies. -/
inductive Place where
  | hbm (dpa ppa : Nat)
  | host (addr : Nat)
  deriving DecidableEq, Repr

/-- An address of a parameter (R298): a device virtual address, or a core's SRAM. -/
inductive Loc where
  | dva (a : Nat)
  | sram (core off : Nat)
  deriving DecidableEq, Repr

/-- The page size of a mapping (R219). -/
def Mapping.page (m : Mapping) : Nat := if m.big then 0x200000 else 0x1000

/-- Whether a mapping covers an address of its address space (R221). -/
def Mapping.covers (m : Mapping) (asid dva : Nat) : Bool :=
  m.asid == asid && m.dva ≤ dva && dva < m.dva + m.pages * m.page

/-- Whether `[a, a+n)` and `[b, b+k)` overlap. -/
def overlap (a n b k : Nat) : Bool := a < b + k && b < a + n && 0 < n && 0 < k

/-- Whether a PPA range meets a sealed range of the partition (R414). -/
def State.sealedHit (s : State) (p ppa n : Nat) : Bool :=
  (s.part p).sealed.any (fun r => overlap ppa n r.1 r.2)

/-- The error of an access. -/
def Acc.err (a : Acc) (status dva : Nat) (write : Bool) : AccErr :=
  { status, part := a.part, asid := a.asid, dva, write, source := a.source }

/-- Whether the device may send nothing for a function because its required stream is not live (R279). -/
def State.ideBlocked (s : State) (fn : Nat) : Bool :=
  bitB (s.reg Reg.ideRequired).toNat fn && s.fld (regKey fn Reg.feLink) 9 1 == 0

/-- The mapping of an address that the access sees (R222). -/
def State.mapping (s : State) (a : Acc) (dva : Nat) : Option Mapping :=
  (s.part a.part).maps.find? (fun m => m.covers a.asid dva && m.since ≤ a.since)

/-- The entry that maps an address, as a walk from a table of a level finds it in HBM, and whether it is a 2 MiB page's (R219,
R220); otherwise the status: of an entry that is not valid or is a leaf where none may be, or of one that cannot be read, with the
bad word (R208, R213). -/
def State.walk (s : State) (p dva : Nat) : Nat → Nat → Except (Nat × Option Nat) (Nat × Bool)
  | level, base =>
    match s.dpaOf p (base + 8 * (dva / 2 ^ (12 + 9 * level) % 512)) with
    | none => .error (0x0301, none)
    | some d =>
      if s.offline (d / stackBase 1) then .error (0x0311, none)
      else if s.mem.hbmBad.get (fun _ => false) (d / 16) then .error (0x0310, some (d / 16 * 16))
      else
        let e := leNat (s.mem.hbm.readN Config.blankByte d 8)
        if e % 2 = 0 then .error (0x0301, none)
        else if bitB e 1 then (if level ≤ 1 then .ok (e, level == 1) else .error (0x0301, none))
        else match level with
          | 0 => .error (0x0301, none)
          | l + 1 => s.walk p dva l (bits e 12 40 * 4096)

/-- A mapping as its entry in HBM gives it at an address (R220): the fields, and where the page lies. -/
def Mapping.seen (m : Mapping) (e : Nat) (big : Bool) (dva : Nat) : Mapping :=
  let page := if big then 0x200000 else 0x1000
  { m with big, dva := dva / page * page, pages := 1, target := bits e 12 40 * 4096, host := bits e 4 2 == 1, write := bitB e 2,
           user := bitB e 3, nocache := bitB e 6 }

/-- The mapping of an address as a walk of the partition's tables in its page-table pool finds it (R219, R221). An address space
whose root table is not known has only what its list of mappings says. -/
def State.walked (s : State) (a : Acc) (m : Mapping) (dva : Nat) (write : Bool) : Except AccErr Mapping :=
  match (s.part a.part).tables.find? (fun t => t.asid == a.asid && t.level == 4) with
  | none => .ok m
  | some t =>
    match s.walk a.part dva 4 ((s.part a.part).ptPool + 4096 * t.num) with
    | .ok e => .ok (m.seen e.1 e.2 dva)
    | .error (st, bad) => .error { a.err st dva write with dpa := bad }

/-- Translation, with the first cause that applies (R223, R414); host memory is out of reach while a required IDE stream is
not live (R279). `n` is the access's length within its 64-byte unit. -/
def State.translate (s : State) (a : Acc) (dva n : Nat) (write : Bool) : Except AccErr (Place × Bool) :=
  match s.mapping a dva with
  | none => .error (a.err 0x0301 dva write)
  | some m0 => match s.walked a m0 dva write with
   | .error e => .error e
   | .ok m =>
    let ppa := m.target + (dva - m.dva)
    if write && !m.write then .error (a.err 0x0302 dva write)
    else if write && !m.host && s.sealedHit a.part ppa n then .error (a.err 0x0302 dva write)
    else if a.user && !m.user then .error (a.err 0x0303 dva write)
    else if m.host then
      if !a.hostOk then .error (a.err 0x0304 dva write)
      else if s.ideBlocked a.fn then .error (a.err 0x0A10 dva write)
      else .ok (.host ppa, m.nocache)
    else if !write && !a.sealedRd && s.sealedHit a.part ppa n then .error (a.err 0x0304 dva write)
    else match s.dpaOf a.part ppa with
      | none => .error (a.err 0x0301 dva write)
      | some d => .ok (.hbm d ppa, m.nocache)

/-! ## HBM and SRAM -/

def State.hbmByte (s : State) (dpa : Nat) : Byte := s.mem.hbm.get Config.blankByte dpa
def State.sramByte (s : State) (k : Nat) : Byte := s.mem.sram.get Config.blankByte k
/-- Whether the 128-bit word at word number `w` (DPA ÷ 16) reads as uncorrectable (R213). -/
def State.hbmBad (s : State) (w : Nat) : Bool := s.mem.hbmBad.get (fun _ => false) w
def State.sramBad (s : State) (w : Nat) : Bool := s.mem.sramBad.get (fun _ => false) w
/-- The key of a core's SRAM byte. -/
def sramKey (core off : Nat) : Nat := core * 2 ^ 24 + off
/-- The words that `n` bytes from `a` touch. -/
def wordsOf (a n : Nat) : List Nat :=
  if n = 0 then [] else (List.range ((a + n - 1) / 16 - a / 16 + 1)).map (a / 16 + ·)

/-- The canonical form of memory: every table of it lists its keys in rising order and nothing that an unlisted key reads as. -/
def Mem.wf (m : Mem) : Bool :=
  m.hbm.wf Config.blankByte && m.hbmBad.wf (fun _ => false) && m.hbmOne.wf (fun _ => false) && m.sram.wf Config.blankByte &&
    m.sramBad.wf (fun _ => false) && m.sramOne.wf (fun _ => false) && m.fences.wf (fun _ => 0)

/-- `n` bytes of HBM that lie in one 64-byte unit, or the first bad word (R213), or an offline stack (R208). -/
def State.readHbm (s : State) (a : Acc) (dva dpa n : Nat) : Except AccErr (List Byte) :=
  if s.offline (dpa / stackBase 1) then .error (a.err 0x0311 dva false)
  else match (wordsOf dpa n).find? s.hbmBad with
    | some w => .error { a.err 0x0310 dva false with dpa := some (w * 16) }
    | none => .ok (s.mem.hbm.readN Config.blankByte dpa n)

/-- The bytes of HBM with the bad words they fill cleared, and valid check bits in every word they touch. A usable range that has
been written is no longer known to hold zeros (R231). -/
def State.putHbm (s : State) (dpa : Nat) (bs : List Byte) : State :=
  let st := dpa / stackBase 1
  let s := if s.fld (Reg.memStatus st) 8 1 = 1 then s.setFld (Reg.memStatus st) 8 1 0 else s
  { s with mem := { s.mem with
      hbm := s.mem.hbm.writeN Config.blankByte dpa bs
      hbmBad := if dpa % 64 = 0 ∧ bs.length = 64 then s.mem.hbmBad.clear (dpa / 16) 4 else s.mem.hbmBad
      hbmOne := s.mem.hbmOne.clear (dpa / 16) (wordsOf dpa bs.length).length } }

/-- The four words of a 64-byte unit poisoned (R211). -/
def State.poisonUnit (s : State) (dpa : Nat) : State :=
  { s with mem := { s.mem with
      hbmBad := s.mem.hbmBad.writeN (fun _ => false) (dpa / 64 * 4) [true, true, true, true] } }

/-- A write within one 64-byte unit of HBM (R211): a full unit clears poison; a part of a unit with a bad word is not applied,
poisons the unit and fails. A write that carries a stale epoch is dropped and counted (R329). -/
def State.writeHbm (s : State) (a : Acc) (dva dpa : Nat) (bs : List Byte) : State × Option AccErr :=
  if a.epoch != s.epoch a.part then (s.bump (Reg.staleDrops a.part) 0 32 1, none)
  else if s.offline (dpa / stackBase 1) then (s, some (a.err 0x0311 dva true))
  else if bs.length != 64 && (wordsOf (dpa / 64 * 64) 64).any s.hbmBad then
    (s.poisonUnit dpa, some { a.err 0x0310 dva true with dpa := some (dpa / 64 * 64) })
  else (s.putHbm dpa bs, none)

/-- `n` bytes of a core's SRAM, or the first bad word (R213). -/
def State.readSram (s : State) (a : Acc) (core off n : Nat) : Except AccErr (List Byte) :=
  match (wordsOf (sramKey core off) n).find? s.sramBad with
  | some w => .error { a.err 0x0310 off false with sram := some (w * 16) }
  | none => .ok (s.mem.sram.readN Config.blankByte (sramKey core off) n)

/-- A write within a core's SRAM. A bad word is cleared where the write fills it; where the write covers only a part of it,
the write reaches no byte of that word and fails (R214). -/
def State.writeSram (s : State) (a : Acc) (core off : Nat) (bs : List Byte) : State × Option AccErr :=
  let k := sramKey core off
  let n := bs.length
  let full := fun w => k ≤ w * 16 && w * 16 + 16 ≤ k + n
  let stuck := (wordsOf k n).filter (fun w => s.sramBad w && !full w)
  let put := fun (m : Mem) (i : Nat) (b : Byte) =>
    if stuck.contains ((k + i) / 16) then m else { m with sram := m.sram.set Config.blankByte (k + i) b }
  let mem := bs.zipIdx.foldl (fun m (b, i) => put m i b) s.mem
  let mem := { mem with sramBad := mem.sramBad.filter (fun e => !full e.1)
                        sramOne := mem.sramOne.clear (k / 16) (wordsOf k n).length }
  if a.epoch != s.epoch a.part then (s.bump (Reg.staleDrops a.part) 0 32 1, none)
  else ({ s with mem }, stuck.head?.map (fun w => { a.err 0x0310 off true with sram := some (w * 16) }))

/-! ## Reads and writes by address -/

/-- A byte range cut at 64-byte boundaries, in ascending order (R246, R248). -/
def pieces : Nat → Nat → Nat → List (Nat × Nat)
  | 0, _, _ => []
  | fuel + 1, a, n =>
    if n = 0 then [] else
      let k := min n (64 - a % 64)
      (a, k) :: pieces fuel (a + k) (n - k)

/-- The pieces of `n` bytes from `a`. -/
def piecesOf (a n : Nat) : List (Nat × Nat) := pieces (n / 64 + 2) a n

/-- A device virtual address must have bits [63:56] = 0 (R298). -/
def dvaOk (a : Nat) : Bool := a < 2 ^ 56

/-- One piece of a read by device virtual address. Host bytes are those the completions brought (log entry 8). -/
def State.readPiece (s : State) (a : Acc) (pc : Nat × Nat) : Except AccErr (List Byte) :=
  match s.translate a pc.1 pc.2 false with
  | .error e => .error e
  | .ok (.hbm d _, _) => s.readHbm a pc.1 d pc.2
  | .ok (.host h, _) => .ok (s.host.readN Config.blankByte h pc.2)

/-- The pieces read in order; the first that fails ends the read. -/
def State.readPieces (s : State) (a : Acc) : List (Nat × Nat) → Except AccErr (List Byte)
  | [] => .ok []
  | p :: ps =>
    match s.readPiece a p with
    | .error e => .error e
    | .ok bs =>
      match s.readPieces a ps with
      | .error e => .error e
      | .ok rest => .ok (bs ++ rest)

/-- A read by device virtual address. -/
def State.readDva (s : State) (a : Acc) (dva n : Nat) : Except AccErr (List Byte) :=
  s.readPieces a (piecesOf dva n)

/-- One piece of a write. A write to host memory leaves as a posted request of the partition's function (R220, R240); its
stale form is not sent (R329). -/
def State.writePiece (s : State) (a : Acc) (dva : Nat) (bs : List Byte) : State × Option AccErr :=
  match s.translate a dva bs.length true with
  | .error e => (s, some e)
  | .ok (.hbm d _, _) => s.writeHbm a dva d bs
  | .ok (.host h, _) =>
    if a.epoch != s.epoch a.part then (s.bump (Reg.staleDrops a.part) 0 32 1, none)
    else (s.emit (.hostWrite a.fn h bs), none)

/-- The pieces written in ascending order; the first that fails stops the write, and what is written stays (R223). -/
def State.writePieces (s : State) (a : Acc) : List (Nat × Nat) → List Byte → State × Option AccErr
  | [], _ => (s, none)
  | p :: ps, bs =>
    match s.writePiece a p.1 (bs.take p.2) with
    | (s', some e) => (s', some e)
    | (s', none) => s'.writePieces a ps (bs.drop p.2)

/-- A write by device virtual address. -/
def State.writeDva (s : State) (a : Acc) (dva : Nat) (bs : List Byte) : State × Option AccErr :=
  s.writePieces a (piecesOf dva bs.length) bs

/-- A read of a parameter address. -/
def State.readLoc (s : State) (a : Acc) (l : Loc) (n : Nat) : Except AccErr (List Byte) :=
  match l with
  | .dva d => s.readDva a d n
  | .sram c o => s.readSram a c o n

/-- A write of a parameter address. -/
def State.writeLoc (s : State) (a : Acc) (l : Loc) (bs : List Byte) : State × Option AccErr :=
  match l with
  | .dva d => s.writeDva a d bs
  | .sram c o => s.writeSram a c o bs

/-- An address so many bytes further on. -/
def Loc.plus : Loc → Nat → Loc
  | .dva a, n => .dva (a + n)
  | .sram c o, n => .sram c (o + n)

/-- An address within its space. -/
def Loc.start : Loc → Nat
  | .dva a => a
  | .sram _ o => o

/-- A write of a little-endian number. -/
def State.writeNum (s : State) (a : Acc) (dva n v : Nat) : State × Option AccErr := s.writeDva a dva (leBytes n v)

/-- The host ranges that a range of addresses maps to, page piece by page piece, for the reads that must be sent (R220). -/
def State.hostRanges (s : State) (a : Acc) (dva n : Nat) : List (Nat × Nat) :=
  (piecesOf dva n).filterMap (fun p => match s.translate a p.1 p.2 false with
    | .ok (.host h, _) => some (h, p.2)
    | _ => none)

/-- The host ranges of a parameter address. -/
def State.locHost (s : State) (a : Acc) (l : Loc) (n : Nat) : List (Nat × Nat) :=
  match l with
  | .dva d => s.hostRanges a d n
  | .sram _ _ => []

/-- Whether every byte of a range translates, for the accesses named; the first cause otherwise. -/
def State.checkRange (s : State) (a : Acc) (dva n : Nat) (write : Bool) : Option AccErr :=
  (piecesOf dva n).findSome? (fun p => match s.translate a p.1 p.2 write with
    | .error e => some e
    | .ok _ => none)

end Sys2Proof.Machine
end

