-- ==== Sys2Proof/Machine/Ops.lean ====
section
/-!
DEFINITION. What every engine does on the side: messages and interrupts (R276, R279, R357), the error log (R354 to R357), event
counters (R440 to R444), trace records (R448 to R452) and the report of a failed access (R213, R232).
-/
namespace Sys2Proof.Machine

/-! ## Messages and interrupts -/

/-- Whether a function exists (R254): 0 is the physical function, n + 1 virtual function n. -/
def State.fnExists (s : State) (fn : Nat) : Bool := fn == 0 || fn ≤ s.fe.numVfs

/-- The requester ID of what is sent for a function: the physical function's where the virtual function does not exist (R254). -/
def State.reqFn (s : State) (fn : Nat) : Nat := if s.fnExists fn then fn else 0

/-- An entry or interrupt sent for a function, or held in order while its stream is not live (R279). -/
def State.sendFor (s : State) (fn : Nat) (o : Out) : State :=
  if s.ideBlocked fn then { s with fe := { s.fe with heldIde := s.fe.heldIde ++ [(fn, o)] } } else s.emit o

/-- A vector raised: its message, or its pending bit while it or its function is masked (R276, R357). -/
def State.raise (s : State) (fn v : Nat) : State :=
  if s.fe.fnMask.get (fun _ => false) fn || s.fld (regKey fn (msixBase + 16 * v + 12)) 0 1 == 1 then
    s.setFld (regKey fn (pbaBase + v / 32 * 4)) (v % 32) 1 1
  else s.sendFor (s.reqFn fn) (.msix fn v)

/-! ## The error log -/

/-- The stack that holds device-wide records (R354). -/
def State.deviceStack (s : State) : Nat := s.fld Reg.ras 5 3

/-- The key of a log slot. -/
def logKey (stack i : Nat) : Nat := stack * 65536 + i

/-- The physical function's error vector, if enabled (R357). -/
def State.raiseRas (s : State) : State :=
  if s.fld Reg.rasIrq 31 1 == 1 then s.raise 0 (s.fld Reg.rasIrq 0 11) else s

/-- A cause of ALERT# (R471): its status bit, and an in-band interrupt where one is due. -/
def State.alert (s : State) (i : Nat) : State :=
  if s.fld Reg.alerts i 1 = 1 then s
  else
    let s := s.setFld Reg.alerts i 1 1
    if s.mgmt.ibi && s.fld Reg.mbxLink 7 1 == 1 && s.fld Reg.alertEnable i 1 == 1 then s.emit (.inBand i) else s

/-- What a new record does beside its slot: PENDING, the error vector, the partition's counts (R357) and the alerts of R471. -/
def State.noteRecord (s : State) (r : LogRec) : State :=
  let s := match r.part with
    | none => s
    | some p =>
      if r.severity = 1 then s.bump (Reg.partEvents p) 0 16 1
      else if 2 ≤ r.severity then s.bump (Reg.partEvents p) 16 16 1 else s
  let s := if 3 ≤ r.severity then s.alert 5 else s
  let s := if r.kind = 0x41 ∨ r.kind = 0x42 then s.alert 6 else s
  if r.severity < 2 then s
  else if s.fld Reg.ras 3 1 = 1 then s
  else (s.setFld Reg.ras 3 1 1).raiseRas

/-- A record written to a stack's log, or merged into its last record (R354, R356). -/
def State.log (s : State) (stack : Nat) (r : LogRec) : State :=
  let next := s.fld (Reg.logNext stack) 0 16
  let r := { r with time := s.now }
  let lastKey := logKey stack ((next + 65535) % 65536)
  match s.ras.log.get (fun _ => none) lastKey with
  | some l =>
    if r.severity = 0 ∧ l.kind = r.kind ∧ l.core = r.core ∧ l.unit = r.unit ∧ l.address = r.address ∧
        s.now ≤ l.time + 1000000 then
      { s with ras := { s.ras with
          log := s.ras.log.set (fun _ => none) lastKey (some { l with count := satAdd 16 l.count 1 }) } }
    else push next r
  | none => push next r
where
  /-- The record in a slot of its own. -/
  push (next : Nat) (r : LogRec) : State :=
    let seq := s.ras.seqs.get (fun _ => 0) stack
    let s := { s with ras := { s.ras with
      log := s.ras.log.set (fun _ => none) (logKey stack next) (some { r with seq })
      seqs := s.ras.seqs.set (fun _ => 0) stack ((seq + 1) % 2 ^ 32) } }
    (s.setFld (Reg.logNext stack) 0 16 (next + 1)).noteRecord r

/-- A record of a core, in its slice's log (R354). -/
def State.logCore (s : State) (core : Nat) (r : LogRec) : State :=
  s.log (core / 3) { r with core, part := s.coreOwner core }

/-- A device-wide record (R354). -/
def State.logDevice (s : State) (r : LogRec) : State := s.log s.deviceStack r

/-! ## Event counters -/

/-- The 48-bit count of a counter (R440). -/
def State.ctr (s : State) (c k : Nat) : Nat := (s.reg (Reg.ctrLo c k)).toNat + 2 ^ 32 * s.fld (Reg.ctrHi c k) 0 16
/-- A counter's count written. -/
def State.setCtr (s : State) (c k v : Nat) : State :=
  (s.setReg (Reg.ctrLo c k) (BitVec.ofNat 32 v)).setFld (Reg.ctrHi c k) 0 16 (v / 2 ^ 32)
/-- Whether an odd counter is chained to the one below (R443). -/
def State.chained (s : State) (c k : Nat) : Bool := k % 2 == 1 && s.fld (Reg.ctrCfg c k) 10 1 == 1

/-- A counter advanced; the counters whose OVF bit it set (R443). -/
def State.ctrAdd (s : State) (c k n : Nat) : State × List Nat :=
  let v := s.ctr c k + n
  let s1 := s.setCtr c k (v % 2 ^ 48)
  if v < 2 ^ 48 then (s1, [])
  else if k % 2 = 0 ∧ s.chained c (k + 1) then
    let w := s.ctr c (k + 1) + 1
    let s2 := s1.setCtr c (k + 1) (w % 2 ^ 48)
    if w < 2 ^ 48 then (s2, []) else (s2.setFld (Reg.ctrHi c (k + 1)) 31 1 1, [k + 1])
  else (s1.setFld (Reg.ctrHi c k) 31 1 1, [k])

/-- Whether counter `k` of a core counts an edge event of code `ev` whose qualifiers `ok` accepts (R440 to R442). -/
def State.ctrSelects (s : State) (c k ev : Nat) (ok : Nat → Bool) : Bool :=
  s.fld (Reg.ctrCfg c k) 11 1 == 1 && s.fld (Reg.ctrCfg c k) 0 8 == ev && !s.chained c k &&
    s.fld (Reg.ctrCfg c k) 8 2 != 3 && ok (s.fld (Reg.ctrCfg c k) 16 8)

/-- `n` edge events on a core, arriving in one cycle (R442); the counters that overflowed. A core of no partition counts
nothing (R440). -/
def State.countRaw (s : State) (c ev : Nat) (ok : Nat → Bool) (n : Nat) : State × List Nat :=
  if (s.coreOwner c).isNone || n == 0 then (s, []) else
    (List.range 16).foldl (fun acc k =>
      if acc.1.ctrSelects c k ev ok then
        let r := acc.1.ctrAdd c k (if s.fld (Reg.ctrCfg c k) 8 2 = 2 then 1 else n)
        (r.1, acc.2 ++ r.2)
      else acc) (s, [])

/-! ## Trace -/

/-- The trace unit's state code (R459). -/
def State.traceState (s : State) (p : Nat) : Nat := s.fld (Reg.traceStatus p) 0 3
/-- Whether records are taken: continuous, fill, pre-trigger, post-trigger or full (R451, R452). -/
def State.tracing (s : State) (p : Nat) : Bool := s.configured p && 1 ≤ s.traceState p && s.traceState p ≤ 4

/-- The access of a partition's trace unit and watches (R448): the ring's address space, with the tenant's own authority. -/
def State.obsAcc (s : State) (p asid : Nat) : Acc :=
  { part := p, asid, since := s.fe.nextCmd, epoch := s.epoch p, fn := s.reqFn (p + 1) }

/-- The observation share of one window in a stack, in bytes: 3 % of 10 µs of its bandwidth (R207, R453). -/
def State.obsShare (s : State) (st : Nat) : Nat :=
  match s.fld (Reg.memStatus st) 0 2 with
  | 0 => 384000
  | 1 => 307200
  | 2 => 245760
  | _ => 0

/-- The stack an address of an address space lies in, if it translates. -/
def State.stackAt (s : State) (a : Acc) (dva : Nat) (write : Bool) : Option Nat :=
  match s.translate a dva 1 write with
  | .ok (.hbm d _, _) => some (d / stackBase 1)
  | _ => none

/-- Whether `n` bytes of observation traffic fit the window's share of a stack, and the share charged if so (R453). -/
def State.obsCharge (s : State) (p st n : Nat) : Option State :=
  let used := (s.part p).obsUsed.get (fun _ => 0) st
  if used + n ≤ s.obsShare st then
    some (s.updPart p fun x => { x with obsUsed := x.obsUsed.set (fun _ => 0) st (used + n) })
  else none

/-- The trace header, written after the records it counts (R449). -/
def State.traceHeader (s : State) (p : Nat) : State :=
  let tr := (s.part p).trace
  let bs := leBytes 8 tr.written ++ leBytes 8 (s.reg (Reg.traceLost p)).toNat ++ leBytes 8 tr.trigIdx ++
    leBytes 1 (s.traceState p) ++ leBytes 3 0 ++ leBytes 4 tr.pre ++ leBytes 4064 0
  (s.writeDva (s.obsAcc p tr.asid) tr.ring bs).1

/-- Whole 64-byte chunks of staged records written while the share lasts (R450, R453). -/
def State.traceFlush (s : State) (p : Nat) : Nat → State
  | 0 => s
  | fuel + 1 =>
    let tr := (s.part p).trace
    match tr.staged with
    | (i, a) :: (_, b) :: rest =>
      let dva := tr.ring + 4096 + 32 * i
      let acc := s.obsAcc p tr.asid
      let s' := s.updPart p fun x => { x with trace := { x.trace with staged := rest, written := tr.written + 2 } }
      match s.stackAt acc dva true with
      | none => (s'.bump (Reg.traceLost p) 0 32 2).traceFlush p fuel
      | some st =>
        match s'.obsCharge p st 64 with
        | none => s.updPart p fun x => { x with obsHeld := some (x.obsHeld.getD s.now) }
        | some s'' => (s''.writeDva acc dva (a ++ b)).1.traceFlush p fuel
    | _ => s

/-- A record that finds no room: counted in LOST and TRACE_DROP (R452). -/
def State.traceDrop (s : State) (p : Nat) : State :=
  let s := (s.bump (Reg.traceLost p) 0 32 1).updPart p fun x =>
    { x with trace := { x.trace with lostNow := x.trace.lostNow + 1 } }
  (List.range 3).foldl (fun s i => (s.countRaw (3 * s.firstSlice p + i) 0x80 (fun _ => true) 1).1) s

/-- One record given its slot and staged (R451, R452). -/
def State.stage (s : State) (p : Nat) (r : List Byte) : State :=
  let tr := (s.part p).trace
  let put := fun (slot : Nat) => s.updPart p fun x =>
    { x with trace := { tr with staged := tr.staged ++ [(slot, r)], index := tr.index + 1, slot := slot + 1 } }
  match s.traceState p with
  | 1 => if tr.staged.length < 128 then put (tr.index % tr.slots) else s.traceDrop p
  | 2 =>
    if tr.slots ≤ tr.index then (s.traceDrop p).setFld (Reg.traceStatus p) 0 3 6
    else if tr.staged.length < 128 then
      let s := put tr.index
      if tr.index + 1 = tr.slots then s.setFld (Reg.traceStatus p) 0 3 6 else s
    else s.traceDrop p
  | 3 => if tr.staged.length < 128 then put (tr.index % tr.pre) else s.traceDrop p
  | 4 =>
    if tr.staged.length < 128 then
      let s := put tr.slot
      if tr.slot + 1 = tr.slots then s.setFld (Reg.traceStatus p) 0 3 5 else s
    else s.traceDrop p
  | 6 => s.traceDrop p
  | _ => s

/-- A trace record of 32 bytes from its fields (R450). -/
def traceBytes (type b1 b2 b3 w4 w8 w12 time w24 w28 : Nat) : List Byte :=
  leBytes 1 type ++ leBytes 1 b1 ++ leBytes 1 b2 ++ leBytes 1 b3 ++ leBytes 4 w4 ++ leBytes 4 w8 ++ leBytes 4 w12 ++
    leBytes 8 time ++ leBytes 4 w24 ++ leBytes 4 w28

/-- A record staged and written out as far as the share allows; records lost before it are named first (R452). When the
trace freezes, its header is written (R449). -/
def State.traceRec (s : State) (p : Nat) (r : List Byte) : State :=
  if s.tracing p || s.traceState p == 6 then
    let tr := (s.part p).trace
    let s1 := if 0 < tr.lostNow && tr.staged.length + 1 < 128 && s.tracing p then
        (s.stage p (traceBytes 6 0 (31 + 32 * p) 0 0 tr.lostNow (tr.lostNow / 2 ^ 32) s.now 0 0)).updPart p
          fun x => { x with trace := { x.trace with lostNow := 0 } }
      else s
    let s2 := (s1.stage p r).traceFlush p 64
    if s2.traceState p != s.traceState p && s2.traceState p == 5 then s2.traceHeader p else s2
  else s

/-- The trigger: a pre-trigger trace starts its second part with a TRIGGER record in slot P; a later condition is counted
(R451). -/
def State.traceFire (s : State) (p cause b1 w4 w8 : Nat) : State :=
  match s.traceState p with
  | 3 =>
    let s := if (s.part p).trace.index % 2 = 1 then s.stage p (traceBytes 0 0 0 0 0 0 0 s.now 0 0) else s
    let tr := (s.part p).trace
    let s := (s.updPart p fun x => { x with trace := { tr with slot := tr.pre, trigIdx := tr.index } }).setFld
      (Reg.traceStatus p) 0 3 4
    s.traceRec p (traceBytes 5 cause (31 + 32 * p) b1 w4 w8 0 s.now 0 0)
  | 4 => s.bump (Reg.traceStatus p) 16 16 1
  | 5 => s.bump (Reg.traceStatus p) 16 16 1
  | _ => s

/-- A counter's overflow as a trace trigger (R448: trigger 3). -/
def State.ovfTrigger (s : State) (c : Nat) (ks : List Nat) : State :=
  match s.coreOwner c with
  | none => s
  | some p =>
    let tr := (s.part p).trace
    if tr.mode = 3 ∧ tr.trigger = 3 ∧ tr.trigCore = c ∧ ks.contains tr.trigCtr then s.traceFire p 3 0 0 0 else s

/-- `n` edge events of code `ev` on a core. -/
def State.countIf (s : State) (c ev : Nat) (ok : Nat → Bool) (n : Nat) : State :=
  let r := s.countRaw c ev ok n
  r.1.ovfTrigger c r.2

/-- `n` edge events whose qualifier is 0 (R441). -/
def State.count (s : State) (c ev n : Nat) : State := s.countIf c ev (· == 0) n

/-- Events that belong to a partition: they count in every core of its first slice (R440). -/
def State.countPart (s : State) (p ev n : Nat) : State :=
  if s.pstate p = 0 then s
  else (List.range 3).foldl (fun s i => s.count (3 * s.firstSlice p + i) ev n) s

/-- Events of a stack: they count in every core of its slice (R230). -/
def State.countStack (s : State) (st ev n : Nat) : State :=
  (List.range 3).foldl (fun s i => s.count (3 * st + i) ev n) s

/-! ## Failed accesses -/

/-- What a translation fault leaves in the partition's fault registers: the first since VALID was cleared (R232). -/
def State.noteFault (s : State) (e : AccErr) : State :=
  let s := s.bump (Reg.mmuFaults e.part) 0 32 1
  if s.fld (Reg.mmuCause e.part) 31 1 = 1 then s
  else (((s.setReg (Reg.mmuLo e.part) (BitVec.ofNat 32 e.dva)).setFld (Reg.mmuHi e.part) 0 24 (e.dva / 2 ^ 32)).setReg
    (Reg.mmuCause e.part)
    (BitVec.ofNat 32 (e.asid % 256 + e.status % 16 * 2 ^ 8 + b2n e.write * 2 ^ 12 + e.source % 32 * 2 ^ 13 + 2 ^ 31)))

/-- An error met at a stack offset: the count, the error record of the controller and the event (R213, R230, R231). -/
def State.noteHbm (s : State) (dpa : Nat) (ue : Bool) : State :=
  let st := dpa / stackBase 1
  let o := dpa % stackBase 1
  let s := s.bump (if ue then Reg.memUe st else Reg.memCe st) 0 32 1
  let s := (s.setReg (Reg.memErrLo st) (BitVec.ofNat 32 o)).setReg (Reg.memErrHi st)
    (BitVec.ofNat 32 (o / 2 ^ 32 % 16 + b2n ue * 16 + 2 ^ 31))
  s.countStack st (if ue then 0x51 else 0x50) 1

/-- A corrected word counted in the hour's window that R208 looks at. -/
def State.countDerate (s : State) (st : Nat) : State :=
  let hour := 3600000000000
  let old := s.now < s.ras.derateAt.get (fun _ => 0) st + hour && s.ras.derate.get (fun _ => 0) st != 0
  { s with ras := { s.ras with
      derate := s.ras.derate.set (fun _ => 0) st (if old then s.ras.derate.get (fun _ => 0) st + 1 else 1)
      derateAt := if old then s.ras.derateAt else s.ras.derateAt.set (fun _ => 0) st s.now } }

/-- A word of HBM with a single-bit error, corrected in place, counted and recorded (R213, R215, R355). -/
def State.fixHbm (s : State) (w : Nat) : State :=
  let st := 16 * w / stackBase 1
  let s := { s with mem := { s.mem with hbmOne := s.mem.hbmOne.set (fun _ => false) w false } }
  ((s.noteHbm (16 * w) false).countDerate st).log st { kind := 0x01, part := s.sliceOwner st, unit := st, address := 16 * w }

/-- A word of SRAM with a single-bit error, corrected in place, counted and recorded (R213, R230, R355). -/
def State.fixSram (s : State) (w : Nat) : State :=
  let core := 16 * w / 2 ^ 24
  let s := { s with mem := { s.mem with sramOne := s.mem.sramOne.set (fun _ => false) w false } }
  (s.count core 0x52 1).logCore core { kind := 0x03, address := 16 * w % 2 ^ 24 }

/-- What a failed access leaves beside its command's status (R213, R214, R232). -/
def State.noteErr (s : State) (e : AccErr) (queue submit : Nat) : State :=
  let s := if 0x0301 ≤ e.status ∧ e.status ≤ 0x0304 then s.noteFault e else s
  let s := match e.dpa with
    | some d => (s.noteHbm d true).log (d / stackBase 1)
        { kind := 0x02, severity := 3, part := some e.part, core := e.source, unit := d / stackBase 1, queue, submit,
          status := e.status, address := d }
    | none => s
  match e.sram with
  | some k => (s.count (k / 2 ^ 24) 0x53 1).logCore (k / 2 ^ 24)
      { kind := 0x04, severity := 3, queue, submit, status := e.status, address := k % 2 ^ 24 }
  | none => s

end Sys2Proof.Machine
end

