-- ==== Sys2Proof/Machine/Flow.lean ====
section
/-!
DEFINITION. How a command lives and ends: the fields of its packet (R283), fences and the wake of waits (R237, R286 to R292),
completion entries and their interrupts (R273, R276, R294), halts (R297), and the one wrapper through which every row that
runs a command in flight goes.
-/
namespace Sys2Proof.Machine

/-- What a meaning answers. -/
abbrev Answer := Host.Outcome State Fault Refusal

/-- The effect when its condition holds, and no effect otherwise (log entry 2). -/
def when (c : Bool) (s t : State) : Answer := .next (if c then t else s)

/-! ## Is the device at work -/

/-- Powered, and no reset held (R423, R470, R487, R488). -/
def State.alive (s : State) : Bool :=
  s.clk.powered && !s.clk.tripped && !s.clk.perst && !s.clk.warm && s.clk.heldBy == 0
/-- Whether a scheduled stop holds the domains: halting, dumping, held or releasing (R430, R439). -/
def State.stopped (s : State) : Bool := 2 ≤ s.fld Reg.stopStatus 0 3
/-- Whether the engines run. -/
def State.active (s : State) : Bool := s.alive && !s.stopped
/-- Whether the firmware runs (R345, R361). -/
def State.fwRuns (s : State) : Bool := s.fld Reg.ras 2 1 == 0
/-- Whether the hand-over to the firmware has taken place since the last boot (R391): a firmware restart does not undo it. -/
def State.eclosed (s : State) : Bool := s.boot.eclosed

/-! ## Packet fields (R283, R284) -/

/-- A field of a packet: `w` bits from bit `lo` of byte `byte`. -/
def Cmd.f (c : Cmd) (byte lo w : Nat) : Nat := bits c.pkt (8 * byte + lo) w
def Cmd.op (c : Cmd) : Nat := c.f 0 0 8
def Cmd.barrier (c : Cmd) : Bool := c.f 2 0 1 == 1 || c.op == 0x02
def Cmd.signalOnError (c : Cmd) : Bool := c.f 2 1 1 == 1
def Cmd.continueOnError (c : Cmd) : Bool := c.f 2 2 1 == 1
def Cmd.strictNan (c : Cmd) : Bool := c.f 2 7 1 == 1
def Cmd.tag (c : Cmd) : Nat := c.f 4 0 32
def Cmd.waitFence (c : Cmd) : Nat := c.f 8 0 24
def Cmd.waitCond (c : Cmd) : Nat := c.f 8 24 3
def Cmd.waitInvalidate (c : Cmd) : Bool := c.f 8 27 1 == 1
def Cmd.signalFence (c : Cmd) : Nat := c.f 12 0 24
def Cmd.signalMode (c : Cmd) : Nat := c.f 12 24 4
def Cmd.waitValue (c : Cmd) : Nat := c.f 16 0 64
def Cmd.signalValue (c : Cmd) : Nat := c.f 24 0 64

/-- The engine code of an opcode (R294, R306). -/
def engineOf (op : Nat) : Nat :=
  if op ≤ 0x03 then 0
  else if op = 0x04 ∨ op = 0x05 ∨ (0x38 ≤ op ∧ op ≤ 0x3D) then 6
  else if op = 0x10 ∨ op = 0x11 ∨ op = 0x12 ∨ op = 0x30 then 2
  else if op = 0x20 ∨ op = 0x21 ∨ op = 0x25 then 3
  else if op = 0x13 ∨ op = 0x14 ∨ op = 0x22 ∨ op = 0x23 ∨ op = 0x24 then 4
  else if op = 0x26 ∨ op = 0x27 then 5
  else if op = 0x40 ∨ op = 0x41 then 7
  else if op = 0x31 ∨ op = 0x80 ∨ op = 0x81 then 0
  else if op = 0x87 ∨ op = 0x88 then 8
  else 1

/-- The access rights of a command's engine (R223): DMA engines and the front end reach host pages. -/
def State.accOf (s : State) (c : Cmd) (source : Nat) (hostOk : Bool) : Acc :=
  { part := c.part, asid := c.asid, user := c.cls == 2, source, hostOk, since := c.id, epoch := c.epoch,
    fn := s.reqFn (c.part + 1) }

/-! ## Fences -/

/-- The fence that an ID names in a partition, as slice · 2²¹ + index (R286); none outside its fence space. -/
def State.fenceKey (s : State) (p f : Nat) : Option Nat :=
  if s.configured p && f < 2 ^ 21 * s.nSlices p then some ((s.firstSlice p + f / 2 ^ 21) * 2 ^ 21 + f % 2 ^ 21) else none

def State.fence (s : State) (k : Nat) : BitVec 64 := s.mem.fences.get (fun _ => 0) k
/-- The address of a fence in the device region of its stack (R205). -/
def fenceDpa (k : Nat) : Nat := stackBase (k / 2 ^ 21) + usable + 0x6800000 + 8 * (k % 2 ^ 21)
/-- Whether the word that holds a fence and its neighbour is uncorrectable (R343). -/
def State.fencePoisoned (s : State) (k : Nat) : Bool := s.hbmBad (fenceDpa k / 16)
/-- The status of a wait or a signal on a fence that cannot be read: its stack is offline (R208), or its word uncorrectable (R343). -/
def State.fenceFault (s : State) (k : Nat) : Option Nat :=
  if s.offline (k / 2 ^ 21) then some 0x0311 else if s.fencePoisoned k then some 0x0310 else none

/-- A wait condition (R287): unsigned comparisons; 0 always holds. -/
def condHolds (cond : Nat) (fence : BitVec 64) (v : Nat) : Bool :=
  match cond with
  | 0 => true
  | 1 => v ≤ fence.toNat
  | 2 => fence.toNat == v
  | 3 => fence &&& BitVec.ofNat 64 v != 0
  | _ => false

/-- The value a signal leaves (R288). -/
def signalled (mode : Nat) (fence : BitVec 64) (v : Nat) : BitVec 64 :=
  match mode with
  | 1 => fence + BitVec.ofNat 64 v
  | 2 => BitVec.ofNat 64 v
  | 3 => if fence.toNat < v then BitVec.ofNat 64 v else fence
  | _ => fence

/-- A command in flight changed by `f`. -/
def State.updCmd (s : State) (id : Nat) (f : Cmd → Cmd) : State :=
  { s with fe := { s.fe with cmds := s.fe.cmds.map (fun c => if c.id = id then f c else c) } }
def State.cmd? (s : State) (id : Nat) : Option Cmd := s.fe.cmds.find? (fun c => c.id == id)

/-- Whether a wait that a later row meets is met in time: its arrival is sampled before its expiry (R292). -/
def State.inTime (s : State) (c : Cmd) : Bool := c.infinite || s.now ≤ c.deadline

/-- The waits that a new fence value satisfies, unless their expiry came first (R292): the arrival is recorded once and
for all (R239). -/
def State.wake (s : State) (k : Nat) : State :=
  { s with fe := { s.fe with cmds := s.fe.cmds.map (fun c =>
      if c.phase = .dispatched ∧ c.met = none ∧ s.fenceKey c.qpart c.waitFence = some k ∧
          condHolds c.waitCond (s.fence k) c.waitValue = true ∧ (c.infinite = true ∨ s.now ≤ c.deadline) then
        { c with met := some s.now }
      else c) } }

/-- A fence written, and the waits on it evaluated again (R237, R287). -/
def State.setFence (s : State) (k : Nat) (v : BitVec 64) : State :=
  ({ s with mem := { s.mem with fences := s.mem.fences.set (fun _ => 0) k v } } : State).wake k

/-- The record of a wait or signal that met a poisoned fence word (R343). -/
def State.logFence (s : State) (k : Nat) (c : Cmd) : State :=
  if s.offline (k / 2 ^ 21) then s
  else s.log (k / 2 ^ 21) { kind := 0x23, severity := 3, part := some c.qpart, queue := c.queue, submit := c.seq.toNat,
                            status := 0x0310, address := fenceDpa k }

/-! ## Completion queues -/

/-- Entries written and not yet read. -/
def CqCtx.unread (c : CqCtx) : Nat := (c.tail + 2 ^ c.size - c.head) % 2 ^ c.size
/-- Slots neither unread nor reserved (R274). -/
def CqCtx.room (c : CqCtx) : Nat := 2 ^ c.size - 1 - (c.unread + c.reserved)

/-- Whether entries and interrupts of a function leave the device: not those of a partition being released (R329). -/
def State.egress (s : State) (fn : Nat) : Bool := fn == 0 || s.configured (fn - 1)

/-- An armed queue's interrupt, when a moderation condition holds (R276); `arming` is the head doorbell's condition. -/
def State.cqInterrupt (s : State) (i : Nat) (arming : Bool) : State :=
  let c := s.cq i
  let due := s.egress c.fn && c.armed && !c.noIrq &&
    ((0 < c.fresh && (c.modCount ≤ c.fresh || c.freshErr ||
        (c.modTime != 0 && c.oldest + 1000 * c.modTime ≤ s.now))) || (arming && c.unread != 0))
  if due then
    (s.raise c.fn c.vector).updCq i fun c => { c with armed := false, fresh := 0, freshErr := false }
  else s

/-- A 32-byte entry at TAIL, with the phase of the pass (R273), then the interrupt (R240). -/
def State.putEntry (s : State) (i : Nat) (e : List Byte) : State :=
  if !s.egress (s.cq i).fn then s else
  let c := s.cq i
  let flags := (e[7]?.getD 0).toNat % 128 + 128 * b2n c.phase
  let e := e.set 7 (BitVec.ofNat 8 flags)
  let f := s.reqFn c.fn
  let s := s.sendFor f (.hostWrite f (c.ring + 32 * c.tail) e)
  let wrap := c.tail + 1 = 2 ^ c.size
  let s := s.updCq i fun c => { c with
    tail := if wrap then 0 else c.tail + 1
    phase := if wrap then !c.phase else c.phase
    oldest := if c.fresh = 0 then s.now else c.oldest
    fresh := c.fresh + 1
    freshErr := c.freshErr || num e 4 2 / 256 != 0 }
  s.cqInterrupt i false

/-- The fields of a completion entry (R294). -/
def entryBytes (tag status engine flags queue seq start dur replays detail : Nat) : List Byte :=
  leBytes 4 tag ++ leBytes 2 status ++ leBytes 1 engine ++ leBytes 1 flags ++ leBytes 4 queue ++ leBytes 4 seq ++
    leBytes 8 start ++ leBytes 4 (min dur 0xFFFFFFFF) ++ leBytes 1 (min replays 255) ++ leBytes 3 detail

/-- The front end's own entry for a halted queue: in the first slot that frees (R261, R273, R274). -/
def State.frontEntry (s : State) (q status : Nat) : State :=
  let x := s.sq q
  let e := entryBytes 0xFFFFFFFF status 0 2 q x.seq.toNat s.now 0 0 0
  if 0 < (s.cq x.cq).room then s.putEntry x.cq e
  else s.updCq x.cq fun c => { c with waiting := c.waiting ++ [e] }

/-- Front-end entries that waited for a slot, written as slots free (R274). -/
def State.drainWaiting (s : State) (c : Nat) : Nat → State
  | 0 => s
  | n + 1 =>
    match (s.cq c).waiting with
    | e :: es =>
      if 0 < (s.cq c).room then ((s.updCq c fun x => { x with waiting := es }).putEntry c e).drainWaiting c n else s
    | [] => s

/-- Reserved slots of a completion queue given back: a front-end entry that waits takes the first (R274). -/
def State.giveBack (s : State) (c n : Nat) : State :=
  (s.updCq c fun x => { x with reserved := x.reserved - n }).drainWaiting c (2 ^ (s.cq c).size)

/-- A queue halted with a status (R264, R297). -/
def State.haltQueue (s : State) (q status : Nat) : State :=
  s.updSq q fun x => { x with halted := true, haltStatus := status }

/-- The statuses marked "Always" in R310. -/
def haltsAlways (st : Nat) : Bool :=
  [0x0101, 0x0102, 0x0103, 0x0121, 0x0201, 0x0202, 0x0203, 0x0312, 0x0401, 0x0402, 0x0403, 0x0903].contains st
/-- The 0x00xx family. -/
def okStatus (st : Nat) : Bool := st < 0x100
/-- Whether a status halts the command's queue (R297). -/
def Cmd.halts (c : Cmd) (st : Nat) : Bool := !okStatus st && (haltsAlways st || !c.continueOnError)

/-! ## Trace and counts of commands -/

/-- A trace record of a command (R450). -/
def cmdTrace (type engine core : Nat) (c : Cmd) (status replays time : Nat) : List Byte :=
  traceBytes type engine (core + 32 * c.part) c.op c.queue c.seq.toNat (status + 2 ^ 16 * min replays 255) time c.step 0

/-- A command record staged if the trace takes the engine's records (R448). The front end's begin record is of START (R450). -/
def State.traceCmd (s : State) (type engine core : Nat) (c : Cmd) (status replays : Nat) : State :=
  let tr := (s.part c.part).trace
  if bitB tr.types 0 && bitB tr.engines engine then
    s.traceRec c.part (cmdTrace type engine core c status replays (if type = 1 ∧ engine = 0 then c.start else s.now))
  else s

/-- The engines of a core that take part in a command there: the softmax pieces of a prefill and the reductions of a collective run
on its vector engine (R196, R386), a sealed load goes through its DMA engine (R413). -/
def coreEngines (op : Nat) : List Nat :=
  if op = 0x25 then [3, 4] else if op = 0x42 then [4] else if op = 0x87 then [2] else [engineOf op]

/-- Whether an engine belongs to no core: the firmware, the KV manager, a port or the security block (R294). -/
def outerEngine (e : Nat) : Bool := [1, 6, 7, 8].contains e

/-- The first work of an engine that belongs to no core (R450). -/
def State.outerBegin (s : State) (c : Cmd) : State :=
  if outerEngine (engineOf c.op) && !c.traced.contains 31 then
    (s.traceCmd 1 (engineOf c.op) 31 c 0 0).updCmd c.id fun c => { c with traced := 31 :: c.traced }
  else s

/-- The end records of the engines that took part in a command (R450). -/
def State.traceEnds (s : State) (c : Cmd) (status : Nat) : State :=
  c.traced.foldl (fun s core => (if core = 31 then [engineOf c.op] else coreEngines c.op).foldl (fun s e =>
    s.traceCmd 2 e core c status c.replays) s) s

/-- The unit of a core that an engine code names, as `CoreSt.prog` numbers them. -/
def engineUnit (e : Nat) : Nat := if e = 3 then 0 else if e = 4 then 1 else if e = 5 then 2 else 3

/-- A unit of a core has made progress: it retired an instruction, or completed a pass, page update or transfer (R343). -/
def State.progress (s : State) (core u : Nat) : State :=
  s.updCore core fun k => { k with prog := k.prog.set (fun _ => 0) u s.now }

/-- The first work of an engine for a command on a core (R450). The translations that the work walks count in TLB_MISS; how many they
are depends on translation caches that the spec does not size, and is free (R230; log entry 63). -/
def State.touch (s : State) (id core : Nat) : State :=
  match s.cmd? id with
  | none => s
  | some c =>
    if c.traced.contains core then s
    else
      let es := coreEngines c.op
      let s := ((s.count core 0x58 (Config.freeNat s.free core)).draw).progress core (engineUnit (es.headD 0))
      (es.foldl (fun s e => s.traceCmd 1 e core c 0 0) s).updCmd id fun c => { c with traced := c.traced ++ [core] }

/-- What a completion triggers in a trace (R448). -/
def State.traceTrigger (s : State) (c : Cmd) (status : Nat) : State :=
  let tr := (s.part c.part).trace
  if tr.mode != 3 then s
  else if (tr.trigger = 1 && !okStatus status) || (tr.trigger = 2 && status == tr.trigStat) ||
      (tr.trigger = 4 && c.op == tr.trigOp) then
    s.traceFire c.part tr.trigger c.op c.queue c.seq.toNat
  else s

/-! ## Ending a command -/

/-- Barriers that became satisfied: no earlier command of the queue is left (R284, R295). -/
def State.freeBarriers (s : State) (q : Nat) : State :=
  { s with fe := { s.fe with cmds := s.fe.cmds.map (fun c =>
      if c.queue = q ∧ c.barrier = true ∧ c.barAt = none ∧
          s.fe.cmds.all (fun d => d.queue != q || c.id ≤ d.id) = true then { c with barAt := some s.now } else c) } }

/-- SEC_PART_p_KEYS as the partition's keys, KEM pair, weight sets and sealed ranges stand (R416). -/
def State.syncSec (s : State) (p : Nat) : State :=
  let x := s.part p
  s.setReg (Reg.secPart p) (BitVec.ofNat 32
    ((x.keys.foldl (fun m e => m + 2 ^ e.1) 0) + 2 ^ 15 * b2n (x.kem != 0) + 2 ^ 16 * x.sets.length + 2 ^ 23 * x.sealed.length))

/-- The range that a running WEIGHTS_LOAD_SEALED seals while it writes it (R414). -/
def Cmd.loading (c : Cmd) : Option (Nat × Nat) :=
  match c.op, c.phase, c.aux with
  | 0x87, .running, [ppa, n] => some (ppa, n)
  | _, _, _ => none

/-- The range of a load that did not succeed leaves the sealed table (R415). -/
def State.unsealLoad (s : State) (c : Cmd) : State :=
  match c.loading with
  | some r => (s.updPart c.part fun p => { p with sealed := p.sealed.erase r }).syncSec c.part
  | none => s

/-- A command leaves flight: its slot and count are given back, its host reads are abandoned (R329), and a hold of its
partition ends (R323), as does the seal of a load that did not succeed (R415). -/
def State.dropCmd (s : State) (c : Cmd) : State :=
  let s : State := ({ s with fe := { s.fe with cmds := s.fe.cmds.filter (fun d => d.id != c.id) } } : State).unsealLoad c
  let s := if (s.part c.part).hold = some c.id then s.updPart c.part fun x => { x with hold := none } else s
  (s.updSq c.queue fun x => { x with inFlight := x.inFlight - 1 }).freeBarriers c.queue

/-- The first queue IDs of a function (R266). -/
def State.adminIds (s : State) (fn : Nat) : Nat × Nat :=
  if fn = 0 then (0, 0) else (s.fld (Reg.qbase (fn - 1)) 0 11 * 512, s.fld (Reg.cqbase (fn - 1)) 0 7 * 512)

/-- The address of a queue's context in the device region of its stack (R264). -/
def ctxDpa (q : Nat) : Nat := stackBase (q / 64 % 8) + usable + 0x6000000 + q / 64 / 8 * 4096 + 64 * (q % 64)

/-- The 64 bytes of a context (R264). -/
def SqCtx.bytes (x : SqCtx) : List Byte :=
  leBytes 8 x.ring ++ leBytes 1 x.size ++ leBytes 1 (x.cls + 4 * b2n x.counters + 8 * b2n x.infinite) ++ leBytes 1 x.part ++
    leBytes 1 x.asid ++ leBytes 2 x.cq ++ leBytes 1 x.epoch ++
    leBytes 1 (b2n x.enabled + 2 * b2n x.halted + 4 * b2n x.idlePend) ++ leBytes 4 x.timeoutM1 ++ leBytes 2 x.head ++
    leBytes 2 x.tail ++ leBytes 4 x.seq.toNat ++ leBytes 2 x.haltStatus ++ leBytes 2 x.inFlight ++ leBytes 32 0

/-- A context written to its place in HBM: four whole words (R211, R270). -/
def State.putCtx (s : State) (q : Nat) : State :=
  { s with mem := { s.mem with
      hbm := s.mem.hbm.writeN Config.blankByte (ctxDpa q) (s.sq q).bytes
      hbmBad := s.mem.hbmBad.clear (ctxDpa q / 16) 4
      hbmOne := s.mem.hbmOne.clear (ctxDpa q / 16) 4 } }

/-- A context of HBM that cannot be read: a word of it is uncorrectable (R343), or its stack is offline (R208; log entry 70). -/
def State.ctxBad (s : State) (q : Nat) : Bool :=
  s.offline (q / 64 % 8) || (List.range 4).any (fun i => s.hbmBad (ctxDpa q / 16 + i))

/-- A submission queue gone: context, tail entry, pending bit and cached context (R267). -/
def State.removeSq (s : State) (q : Nat) : State :=
  let s := s.updSq q fun _ => {}
  ({ s with fe := { s.fe with tails := s.fe.tails.set (fun _ => 0) q 0, pend := s.fe.pend.set (fun _ => false) q false,
                              cache := s.fe.cache.filter (· != q) } } : State).putCtx q

/-- The admin queues of a function destroyed once ENABLE is clear and nothing is in flight (R266). -/
def State.reapAdmin (s : State) (fn : Nat) : State :=
  let ids := s.adminIds fn
  if (s.sq ids.1).inFlight == 0 && !s.fe.ringReads.any (fun r => r.queue == ids.1) then
    let s := if (s.sq ids.1).enabled then s.removeSq ids.1 else s
    (s.updCq ids.2 fun _ => {}).setFld (regKey fn Reg.adminCtl) 31 1 0
  else s

/-- The same, where the queue that changed is one that goes. -/
def State.reapQueue (s : State) (q : Nat) : State := if (s.sq q).adminGone then s.reapAdmin (s.sq q).fn else s

/-- The end of a command (R289, R294, R297): `sig` is whether a signal is considered at all. The signal is applied after the command's
writes; the queue halts; the entry is written, unless the queue's context is lost (R343); then the interrupt. DURATION runs to now, or
to a wait's expiry (R293). -/
def State.retire (s : State) (c : Cmd) (status detail : Nat) (sig : Bool) (endAt : Option Nat := none) : State :=
  let want := sig && c.signalMode != 0 && (okStatus status || c.signalOnError)
  let k := if want then s.fenceKey c.qpart c.signalFence else none
  let fault := k.bind s.fenceFault
  let bad := fault.isSome
  let s := match k with | some k => if bad then s.logFence k c else s | none => s
  let status := fault.getD status
  let did := k.isSome && !bad
  let s := match k with
    | some k => if bad then s else s.setFence k (signalled c.signalMode (s.fence k) c.signalValue)
    | none => s
  let eng := engineOf c.op
  let s := if c.phase = .dispatched then s.traceCmd 1 0 31 c 0 0
    else if outerEngine (engineOf c.op) && !c.traced.contains 31 then
      (s.outerBegin c).traceEnds { c with traced := 31 :: c.traced } status
    else s.traceEnds c status
  let s := s.traceCmd 2 0 31 c status c.replays
  let s := c.traced.foldl (fun s core => s.countIf core 0x01 (fun q => q == c.op || q == 0xFF) 1) s
  let halt := c.halts status
  let s := if halt then s.haltQueue c.queue status else s
  let dur := endAt.getD s.now - c.start
  let flags := b2n did + 2 * b2n halt + 4 * b2n (0xFFFFFFFF < dur) + 8 * b2n c.waited
  let e := entryBytes c.tag status eng flags c.queue c.seq.toNat c.start dur c.replays detail
  let lost := (s.sq c.queue).lost
  let s := s.dropCmd c
  let s := if lost then s else (s.updCq c.cq fun q => { q with reserved := q.reserved - 1 }).putEntry c.cq e
  (s.traceTrigger c status).reapQueue c.queue

/-- The statuses of the 0x08xx family that abort a job (R358). -/
def abortsJob (st : Nat) : Bool := st / 256 == 8 && st != 0x0821 && st != 0x0830

/-- Whether a command belongs to the network commands of a job (R360). -/
def isNetOp (op : Nat) : Bool := op == 0x40 || op == 0x41 || op == 0x42

/-- Whether a command is a JOB_OPEN or JOB_CLOSE (R386), once its block is known. -/
def Cmd.isJobOp (c : Cmd) : Bool := c.op == 0x42 && 0x10 ≤ num (c.block.getD []) 64 1

/-- The ports that a partition holds (R21). -/
def State.portsOf (s : State) (p : Nat) : List Nat := ones (s.fld (Reg.part p) 9 4) 4
/-- Whether a port's link is up and keyed (R362, R389: LINK 3 or 4). -/
def State.linkUp (s : State) (n : Nat) : Bool := s.fld (Reg.net n 0) 0 3 == 3 || s.fld (Reg.net n 0) 0 3 == 4

/-- A message ended early: a CANCEL if it has begun (R381). -/
def TxMsg.ended (m : TxMsg) : Option TxMsg :=
  if m.seq.isSome then some { m with cmd := none, type := 5, sent := 0, total := 1, rnrUntil := none, rnrSince := none,
                                                noted := false } else none

/-- The messages of the listed commands ended on every port. -/
def State.endMsgs (s : State) (ids : List Nat) : State :=
  (List.range 4).foldl (fun s n =>
    if (s.port n).msgs.any (fun m => m.cmd.any ids.contains) then
      s.updPort n fun x => { x with msgs := x.msgs.filterMap (fun m => if m.cmd.any ids.contains then m.ended else some m) }
    else s) s

/-- A partition's job aborted (R359, R360, R384): ABORTED, the record, one ABORT on every held port whose link is up but the
one it came by, a CANCEL for each message begun, and every network command of the job ended, those still waiting when they
start. `from_` is the arrival port of a received ABORT. -/
def State.jobAbort (s : State) (p : Nat) (from_ : Option Nat) : State :=
  if s.fld (Reg.abort p) 0 1 = 0 ∨ s.fld (Reg.abort p) 1 1 = 1 then s else
    let job := s.fld (Reg.job p) 0 16
    let ep := s.fld (Reg.job p) 16 16
    let s := s.setFld (Reg.abort p) 1 1 1
    let s := match from_ with
      | none => s.setFld (Reg.abort p) 2 2 1
      | some n => (s.setFld (Reg.abort p) 2 2 2).setFld (Reg.abort p) 4 2 n
    let s := s.logDevice { kind := if from_.isNone then 0x38 else 0x39, severity := 3, part := some p,
                           unit := from_.getD 0, extra := ep }
    let s := (s.portsOf p).foldl (fun s n =>
      if s.linkUp n ∧ from_ ≠ some n then s.updPort n fun x => { x with aborts := x.aborts ++ [(job, ep, false)] } else s) s
    let s := s.updPart p fun x => { x with buffers := [] }
    let cs := s.fe.cmds.filter (fun c => c.part == p && isNetOp c.op && !c.isJobOp)
    cs.foldl (fun s c => match s.cmd? c.id with
        | some c => if c.block.isSome then s.retire c 0x0710 0 true
                    else s.updCmd c.id fun c => { c with aborted := true }
        | none => s) (s.endMsgs (cs.map (·.id)))

/-- The end of a command that ran, and the job abort that some statuses bring (R358). -/
def State.complete (s : State) (c : Cmd) (status detail : Nat) : State :=
  let s := s.retire c status detail true
  if abortsJob status then s.jobAbort c.part none else s

/-- The opcodes whose destination a tensor watch may watch (R455). -/
def isProducer (op : Nat) : Bool := [0x10, 0x11, 0x12, 0x20, 0x21, 0x23, 0x25, 0x26].contains op

/-- The armed watch slots that a producer with this destination fires, being the first to (R455). -/
def State.watchesOf (s : State) (c : Cmd) (dst : Option Nat) : List Nat :=
  if !isProducer c.op then [] else
    let taken := s.fe.cmds.flatMap (fun d => if d.part = c.part ∧ d.phase = .watched then d.watching else [])
    ((s.part c.part).watches.filter (fun w =>
      w.2.step == c.step && w.2.asid == c.asid && dst == some w.2.addr && !taken.contains w.1)).map (·.1)

/-- The end of a command whose destination starts at `dst`: a watch acts before the release (R455). -/
def State.finish (s : State) (c : Cmd) (status detail : Nat) (dst : Option Nat) : State :=
  match s.watchesOf c dst with
  | [] => s.complete c status detail
  | ws => s.updCmd c.id fun c => { c with phase := .watched, status, detail, watching := ws }

/-- The engine of a core that serves an opcode, as a release sees it (R238): the sealed load works through the DMA engines
(R413). -/
def releaseEngine (op : Nat) : Nat := if op = 0x87 then 2 else engineOf op

/-- Whether the release of a command must wait (R238, R240): an earlier command that has started, on the same engine of a core that
both use, has writes to make. -/
def State.releaseHeld (s : State) (c : Cmd) : Bool :=
  s.fe.cmds.any (fun d => d.id < c.id && d.part == c.part && d.phase != .dispatched &&
    releaseEngine d.op == releaseEngine c.op && d.cores.any c.cores.contains)

/-- The end of a command whose work is done: at once, or when its row comes again after the earlier commands of its engine
(R238, R240; log entry 60). -/
def State.endRun (s : State) (c : Cmd) (status detail : Nat) (dst : Option Nat) : State :=
  if s.releaseHeld c then s.updCmd c.id fun c => { c with phase := .written, status, detail, dst }
  else s.finish c status detail dst

/-! ## Host reads -/

/-- Adjacent ranges joined into requests of at most `lim` bytes, none across a 4 KiB boundary (R252). -/
def joinRanges (lim : Nat) : List (Nat × Nat) → List (Nat × Nat)
  | [] => []
  | (a, n) :: t =>
    match joinRanges lim t with
    | (b, m) :: u =>
      if a + n = b ∧ n + m ≤ lim ∧ a / 4096 = (b + m - 1) / 4096 then (a, n + m) :: u else (a, n) :: (b, m) :: u
    | [] => [(a, n)]

/-- The read requests that a function has outstanding: those of commands and those of ring reads (R252). -/
def State.outstanding (s : State) (fn : Nat) : Nat :=
  (s.fe.tags.filter (fun t => t.fn == fn)).length +
    ((s.fe.ringReads.filter (fun r => s.reqFn r.fn == fn)).map (fun r => if r.n2 = 0 then 1 else 2)).sum

/-- The lowest tag that a function has no read outstanding under, of the 1,024 it may have outstanding (R252, R329; the choice of
tag is the model's). -/
def State.freeTag (s : State) (fn : Nat) : Option Nat :=
  if 1024 ≤ s.outstanding fn then none
  else (List.range 1024).find? (fun t => s.fe.tags.all (fun x => !(x.fn == fn && x.tag == t)))

/-- Host reads sent for a command, as many as tags allow (R252, R329). -/
def State.sendReads (s : State) (c : Cmd) (a : Acc) (rs : List (Nat × Nat)) : State :=
  (joinRanges s.fe.maxRead rs).foldl (fun s r => match s.freeTag a.fn with
    | none => s
    | some t =>
      ({ s with fe := { s.fe with tags := s.fe.tags ++
          [{ tag := t, fn := a.fn, cmd := c.id, part := c.part, epoch := c.epoch, addr := r.1, len := r.2 }] } } : State).emit
        (.hostRead a.fn t r.1 r.2)) s

/-- The host ranges a command still lacks. -/
def Cmd.missing (c : Cmd) (rs : List (Nat × Nat)) : List (Nat × Nat) :=
  rs.filter (fun r => !c.got.any (fun g => g.1 ≤ r.1 && r.1 + r.2 ≤ g.1 + g.2))

/-- Whether a command has host reads outstanding. -/
def State.reading (s : State) (id : Nat) : Bool := s.fe.tags.any (fun t => t.cmd == id)

/-! ## Running a command -/

/-- What the body of an opcode answers: the command is done with a status and DETAIL and its destination's start; it goes on
in later events; it needs bytes of host memory first; or an access of it failed. -/
inductive Res where
  | done (s : State) (status detail : Nat) (dst : Option Nat)
  | more (s : State)
  | fetch (a : Acc) (ranges : List (Nat × Nat))
  | fail (s : State) (e : AccErr)

/-- Whether a command in flight may run now: it has started, no host read of it is outstanding, its partition's epoch is the
one it was dispatched under (R329, R330), and the firmware is there if it needs it (R345). -/
def State.canRun (s : State) (c : Cmd) : Bool :=
  s.active && (c.phase == .started || c.phase == .running || c.phase == .written) && !s.reading c.id && c.epoch == s.epoch c.part &&
    ((engineOf c.op != 1 && engineOf c.op != 8) || s.fwRuns)

/-- A command that has begun to run on an engine outside the cores (R450). -/
def State.outerRuns (s : State) (id : Nat) : State :=
  match s.cmd? id with
  | some c => if c.phase = .running then s.outerBegin c else s
  | none => s

/-- One event of a command in flight: the body runs if the command is there, is of one of the opcodes, and may run. A command whose
work is done ends once its release may be made. -/
def runCmd (s : State) (id : Nat) (ops : List Nat) (body : State → Cmd → Res) : State :=
  match s.cmd? id with
  | none => s
  | some c =>
    if ops.contains c.op && s.canRun c then
      if c.phase = .written then (if s.releaseHeld c then s else s.finish c c.status c.detail c.dst)
      else if c.hostErr then s.endRun c 0x0310 0 none
      else match body s c with
        | .done s' status detail dst =>
          match s'.cmd? id with
          | some c' => s'.endRun c' status detail dst
          | none => s'
        | .more s' => s'.outerRuns id
        | .fetch a rs => (s.outerBegin c).sendReads c a (c.missing rs)
        | .fail s' e =>
          match s'.cmd? id with
          | some c' => (s'.noteErr e c'.queue c'.seq.toNat).endRun c' e.status 0 none
          | none => s'
    else s

/-- A body that first needs host bytes: it goes on once they are there. -/
def withHost (c : Cmd) (a : Acc) (rs : List (Nat × Nat)) (k : Res) : Res :=
  if (c.missing rs).isEmpty then k else .fetch a rs

end Sys2Proof.Machine
end

