-- ==== Sys2Proof/Machine/Queues.lean ====
section
/-!
DEFINITION. Doorbells, the scheduler, ring fetches and host-read completions (R259 to R276, R329).
-/
namespace Sys2Proof.Machine

/-- The function that owns a submission queue ID (R259). -/
def State.sqOwner (s : State) (q : Nat) : Nat :=
  match (List.range 8).find? (fun p => s.fld (Reg.qbase p) 0 11 * 512 ≤ q &&
      q < (s.fld (Reg.qbase p) 0 11 + s.fld (Reg.qbase p) 16 12) * 512) with
  | some p => p + 1
  | none => 0
/-- The function that owns a completion queue ID (R259). -/
def State.cqOwner (s : State) (c : Nat) : Nat :=
  match (List.range 8).find? (fun p => s.fld (Reg.cqbase p) 0 7 * 512 ≤ c &&
      c < (s.fld (Reg.cqbase p) 0 7 + s.fld (Reg.cqbase p) 16 8) * 512) with
  | some p => p + 1
  | none => 0

/-- Whether a function may ring doorbells: the PF, or a VF whose partition is configured and not released (R254, R328). -/
def State.fnServes (s : State) (fn : Nat) : Bool := fn == 0 || (s.fnExists fn && s.configured (fn - 1))

def State.tail (s : State) (q : Nat) : Nat := s.fe.tails.get (fun _ => 0) q
def State.isPending (s : State) (q : Nat) : Bool := s.fe.pend.get (fun _ => false) q
def State.setPending (s : State) (q : Nat) (b : Bool) : State :=
  { s with fe := { s.fe with pend := s.fe.pend.set (fun _ => false) q b } }

/-! ## Doorbells -/

/-- A doorbell dropped and counted against the function it arrived on (R263). -/
def State.dropDoorbell (s : State) (fn : Nat) : State :=
  let s := s.bump (regKey fn Reg.dbDrops) 0 32 1
  if fn = 0 then s else s.countPart (fn - 1) 0x61 1

/-- A doorbell for queue `q` with tail `t` (R263). -/
def State.doorbell (s : State) (fn q t : Nat) : State :=
  let x := s.sq q
  if !s.eclosed || !x.enabled || x.fn != fn || !s.fnServes fn then s.dropDoorbell fn
  else if 2 ^ x.size ≤ t then (s.haltQueue q 0x0121).frontEntry q 0x0121
  else (({ s with fe := { s.fe with tails := s.fe.tails.set (fun _ => 0) q t } } : State).setPending q true).countPart
    x.part 0x60 1

/-- A BAR2 write (R262, R263): an aligned 8-byte write or the lower aligned half is a doorbell, the upper half alone is
ignored, anything else is dropped and counted. -/
def State.bar2Write (s : State) (fn off size : Nat) (val : BitVec 64) : State :=
  if (size = 8 ∨ size = 4) ∧ off % 8 = 0 then s.doorbell fn (off / 8) (bits val.toNat 0 16)
  else if size = 4 ∧ off % 8 = 4 then s
  else s.dropDoorbell fn

/-- Inbound traffic that a stop holds until release (R433). -/
def State.holdInbound (s : State) (i : Instr) : State :=
  { s with fe := { s.fe with stopHeld := s.fe.stopHeld ++ [i] } }

/-- SUBMISSION_DOORBELL (R262, R263). -/
def execSubmissionDoorbell (fn off size : Nat) (val : BitVec 64) (s : State) : Answer :=
  if 9 ≤ fn ∨ 2 ^ 23 ≤ off then .next s
  else if !s.alive || !s.fnExists fn then .next s
  else if s.stopped then .next (s.holdInbound (.submissionDoorbell fn off size val))
  else .next (s.bar2Write fn off size val)

/-- A head doorbell (R275, R276). -/
def State.headDoorbell (s : State) (fn c h : Nat) (arm : Bool) : State :=
  let x := s.cq c
  if fn ≠ 0 ∧ s.cqOwner c ≠ fn then s
  else if !x.enabled || x.fn != fn || 2 ^ x.size ≤ h || x.unread < (h + 2 ^ x.size - x.head) % 2 ^ x.size then
    s.dropDoorbell fn
  else
    let s := s.updCq c fun x => { x with head := h, armed := x.armed || arm }
    ((s.cqInterrupt c arm).drainWaiting c (2 ^ x.size))

/-- COMPLETION_HEAD_DOORBELL (R275). -/
def execCompletionHeadDoorbell (fn cq : Nat) (val : BitVec 64) (s : State) : Answer :=
  if 9 ≤ fn ∨ 65536 ≤ cq then .next s
  else if !s.alive || !s.fnExists fn then .next s
  else if s.stopped then .next (s.bump Reg.stopDrops 0 32 1)
  else .next (s.headDoorbell fn cq (bits val.toNat 0 16) (bitB val.toNat 16))

/-- CQ_MOD_TIME_EXPIRY (R276). -/
def execCqModTimeExpiry (cq t : Nat) (s : State) : Answer :=
  if 65536 ≤ cq then .next s
  else if !s.active then .next s
  else .next ((s.atTime t).cqInterrupt cq false)

/-! ## The scheduler -/

/-- Whether the scheduler may visit a queue now: pending, enabled, not halted or lost, no visit of it in progress, room for a
completion entry that no front-end entry waits for (R267, R269, R274), its owner not being released (R328) or reset (R348), fewer than
256 ring reads outstanding (R270), and tags for the two requests a visit may make (R252). -/
def State.visitable (s : State) (q : Nat) : Bool :=
  let x := s.sq q
  s.isPending q && x.enabled && !x.halted && !x.lost && !x.stopFetch && 0 < (s.cq x.cq).room && (s.cq x.cq).waiting.isEmpty &&
    !s.fe.ringReads.any (fun r => r.queue == q) && (x.fn == 0 || (s.configured (x.fn - 1) && !(s.part (x.fn - 1)).resetDue)) &&
    s.fe.ringReads.length < 256 && s.outstanding (s.reqFn x.fn) + 2 ≤ 1024

/-- The pending queues of an owner that may be visited, ascending (R268). -/
def State.ready (s : State) (owner : Nat) : List Nat :=
  (s.fe.pend.map (·.1)).filter (fun q => s.visitable q && (s.sq q).fn == owner)

/-- The queue of the next visit, with its owner (R268): owners in turn, and within one the next ID from its pointer. -/
def State.nextVisit (s : State) : Option (Nat × Nat) :=
  ((List.range 9).map (fun i => (s.fe.rrOwner + i) % 9)).findSome? (fun o =>
    match s.ready o with
    | [] => none
    | q :: qs => some (o, ((q :: qs).find? (fun x => s.fe.rrNext.get (fun _ => 0) o ≤ x)).getD q))

/-- Room in the queue-context cache of 4,096 for one more (R270): the least recently used context without a visit in progress leaves,
and is written back if it changed. -/
def State.evictCtx (s : State) : State :=
  if s.fe.cache.length < 4096 then s
  else match s.fe.cache.reverse.find? (fun x => !s.fe.ringReads.any (fun r => r.queue == x)) with
    | none => s
    | some v =>
      let s := if s.mem.hbm.readN Config.blankByte (ctxDpa v) 64 = (s.sq v).bytes then s else s.putCtx v
      { s with fe := { s.fe with cache := s.fe.cache.filter (· != v) } }

/-- A context's visit in the queue-context cache, most recently used first (R270); whether it was cached. -/
def State.cacheVisit (s : State) (q : Nat) : State × Bool :=
  let hit := s.fe.cache.contains q
  let s := if hit then s else s.evictCtx
  ({ s with fe := { s.fe with cache := q :: s.fe.cache.filter (· != q) } }, hit)

/-- The ring read of a visit that takes `n` slots from HEAD: one request, or two where the run wraps (R260); its completion
slots are reserved (R269). -/
def State.ringRead (s : State) (q n taken tail : Nat) : State :=
  let x := s.sq q
  let n1 := min n (2 ^ x.size - x.head)
  let s := s.updCq x.cq fun c => { c with reserved := c.reserved + n }
  let r : RingRead := { queue := q, fn := x.fn, part := x.part, epoch := s.epoch x.part, first := x.head, n1, n2 := n - n1, taken, tail }
  let s := { s with fe := { s.fe with ringReads := s.fe.ringReads ++ [r] } }
  let f := s.reqFn x.fn
  let s := s.emit (.ringRead f (x.ring + 64 * x.head) (64 * n1))
  if n1 < n then s.emit (.ringRead f x.ring (64 * (n - n1))) else s

/-- Slots between HEAD and a tail. -/
def SqCtx.behind (x : SqCtx) (t : Nat) : Nat := (t + 2 ^ x.size - x.head) % 2 ^ x.size

/-- A queue halted by the front end with its own entry; its slots stay to be fetched (R261, R267, R279). -/
def State.haltFront (s : State) (q status : Nat) : State :=
  ((s.haltQueue q status).setPending q true).frontEntry q status

/-- An uncorrectable context: the queue halts without an entry, and a record names it (R343). Where it is a word of HBM that is at
fault, the controller counts it (R213); it leaves the cache, which never held it. -/
def State.loseContext (s : State) (q : Nat) : State :=
  let s := (s.updSq q fun x => { x with halted := true, lost := true })
  let s := { s with fe := { s.fe with cache := s.fe.cache.filter (· != q) } }
  let s := if s.offline (q / 64 % 8) then s else s.noteHbm (ctxDpa q) true
  s.log ((q / 64) % 8) { kind := 0x22, severity := 3, queue := q, unit := (q / 64) % 8 }

/-- The first word of a context found uncorrectable by a read of it (R213). -/
def State.breakCtx (s : State) (q : Nat) : State :=
  { s with mem := { s.mem with hbmBad := s.mem.hbmBad.set (fun _ => false) (ctxDpa q / 16) true } }

/-- One visit of queue `q` (R269 to R271, R279). `ctxLost` says that its read of the context from HBM meets an uncorrectable word. -/
def State.visit (s : State) (o q : Nat) (ctxLost : Bool) : State :=
  let x := s.sq q
  let t := s.tail q
  let s := { s with fe := { s.fe with rrOwner := (o + 1) % 9, rrNext := s.fe.rrNext.set (fun _ => 0) o (q + 1) } }
  let s := s.setPending q false
  let r := s.cacheVisit q
  let s := (r.1.countPart x.part 0x62 1).countPart x.part (if r.2 then 0x64 else 0x65) 1
  let s := if ctxLost && !r.2 then s.breakCtx q else s
  if !r.2 && s.ctxBad q then s.loseContext q
  else if x.behind t = 0 then (s.updSq q fun x => { x with tail := t }).countPart x.part 0x63 1
  else if s.ideBlocked (s.reqFn x.fn) then s.haltFront q 0x0A10
  else
    let n := min 8 (min (x.behind t) (s.cq x.cq).room)
    (s.updSq q fun x => { x with tail := t }).ringRead q n n t

/-- The idle check of a visit that fetched up to the tail it read (R271): a doorbell that arrived meanwhile continues the
visit, within its 8 slots, unless its stream is no longer live (R279). -/
def State.idleCheck (s : State) (q taken : Nat) : State :=
  let x := s.sq q
  let bit := s.isPending q
  let t := s.tail q
  let s := s.setPending q false
  if x.behind t = 0 then if bit then s.countPart x.part 0x63 1 else s
  else if s.ideBlocked (s.reqFn x.fn) then s.haltFront q 0x0A10
  else
    let n := min (8 - taken) (min (x.behind t) (s.cq x.cq).room)
    if n = 0 then s.setPending q true
    else (s.updSq q fun x => { x with tail := t }).ringRead q n (taken + n) t

/-- The slots of a ring read delivered (R261): those before the first failed request are fetched, and a failure halts the
queue. Slots of a queue that has halted or is being destroyed, or behind a rejected packet, are discarded (R267, R285). -/
def State.ringDone (s : State) (r : RingRead) (ok1 ok2 : Bool) (slots : List (BitVec 512)) : State :=
  let x := s.sq r.queue
  let n := r.n1 + r.n2
  let s := { s with fe := { s.fe with ringReads := s.fe.ringReads.filter (fun y => y != r) } }
  let mine := x.enabled && x.part == r.part && x.epoch == r.epoch
  if r.epoch != s.epoch r.part then
    let s := s.bump (Reg.staleDrops r.part) 0 32 (if r.n2 = 0 then 1 else 2)
    if mine then s.giveBack x.cq n else s
  else if !mine then s
  else if x.halted || x.stopFetch || r.void then
    ((s.giveBack x.cq n).setPending r.queue !x.stopFetch).reapQueue r.queue
  else
    let g := if ok1 then r.n1 + (if ok2 then r.n2 else 0) else 0
    let got := (List.range g).map (fun i =>
      ({ queue := r.queue, seq := x.seq + BitVec.ofNat 32 i, slot := (r.first + i) % 2 ^ x.size,
         pkt := (slots[i]?.getD 0).toNat } : Fetched))
    let s := { s with fe := { s.fe with fetched := s.fe.fetched ++ got } }
    let s := s.updSq r.queue fun x => { x with
      head := (r.first + g) % 2 ^ x.size, seq := x.seq + BitVec.ofNat 32 g, inFlight := x.inFlight + g }
    let s := s.giveBack x.cq (n - g)
    if g < n then s.haltFront r.queue 0x0312
    else if (s.sq r.queue).head = r.tail then s.idleCheck r.queue r.taken
    else s.setPending r.queue true

/-- RING_FETCH_COMPLETION (R261). -/
def execRingFetchCompletion (queue : Nat) (ok1 ok2 : Bool) (slots : List (BitVec 512)) (s : State) : Answer :=
  if 2 ^ 20 ≤ queue then .next s
  else if !s.alive then .next s
  else match s.fe.ringReads.find? (fun r => r.queue == queue) with
    | none => .next s
    | some r =>
      if s.stopped then .next (s.holdInbound (.ringFetchCompletion queue ok1 ok2 slots))
      else .next (s.ringDone r ok1 ok2 slots)

/-! ## Host reads -/

/-- A completion for an outstanding tag (R329): discarded and counted if its epoch is stale, else delivered to the command
that asked; a failed one fails that command's read. -/
def State.readDone (s : State) (t : Tag) (ok : Bool) (data : List Byte) : State :=
  let s := { s with fe := { s.fe with tags := s.fe.tags.filter (fun x => x != t) } }
  if t.epoch != s.epoch t.part then s.bump (Reg.staleDrops t.part) 0 32 1
  else if ok then
    ({ s with host := s.host.writeN Config.blankByte t.addr (padTo t.len data) } : State).updCmd t.cmd
      fun c => { c with got := c.got ++ [(t.addr, t.len)] }
  else s.updCmd t.cmd fun c => { c with hostErr := true }

/-- The outstanding read under a function's tag. -/
def State.tag? (s : State) (fn tag : Nat) : Option Tag := s.fe.tags.find? (fun t => t.fn == fn && t.tag == tag)

/-- HOST_READ_COMPLETION (R329). -/
def execHostReadCompletion (fn tag : Nat) (ok : Bool) (data : List Byte) (s : State) : Answer :=
  if 9 ≤ fn then .next s
  else if !s.alive then .next s
  else match s.tag? fn tag with
    | none => .next s
    | some t =>
      if s.stopped then .next (s.holdInbound (.hostReadCompletion fn tag ok data))
      else .next (s.readDone t ok data)

/-- HOST_READ_COMPLETION_TIMEOUT (R329): the tag is free again and the read has failed. -/
def execHostReadCompletionTimeout (fn tag : Nat) (s : State) : Answer :=
  if 9 ≤ fn then .next s
  else match s.tag? fn tag with
    | none => .next s
    | some t =>
      when s.active s
        (({ s with fe := { s.fe with tags := s.fe.tags.filter (fun x => x != t) } } : State).updCmd t.cmd
          fun c => if t.epoch = s.epoch t.part then { c with hostErr := true } else c)

end Sys2Proof.Machine
end

