-- ==== Sys2Proof/Machine/RegIo.lean ====
section
/-!
DEFINITION. How an access reaches a register of BAR0: what each function's view decodes (R257, R391, R446), what a stop drops
(R433).
-/
namespace Sys2Proof.Machine

/-- Whether an offset lies in block `i` of `n` blocks of `size` bytes from `base`, and which. -/
def blockOf (off base size n : Nat) : Option Nat :=
  if base ≤ off ∧ off < base + n * size then some ((off - base) / size) else none

/-- Whether an optional unit number is owned. -/
def ownedBy (o : Option Nat) (owns : Nat → Bool) : Bool := o.any owns

/-- Whether an offset is decoded in virtual function `p`'s view of BAR0 (R257, R446). -/
def State.vfSees (s : State) (p off : Nat) : Bool :=
  off == Reg.gctlId || perFn off ||
    ownedBy (blockOf off 0x180000 8 65536) (fun c => s.cqOwner c == p + 1) ||
    blockOf off 0x400000 0x80000 8 == some p ||
    ownedBy (blockOf off 0x800000 0x10000 24) (fun c => s.coreOwner c == some p) ||
    ownedBy (blockOf off 0x300000 0x1000 8) (fun n => s.sliceOwner n == some p) ||
    ownedBy (blockOf off 0x1000000 0x100000 4) (fun n => s.portOwner n == some p) ||
    ownedBy (blockOf off 0x1600000 0x400 24) (fun c => s.coreOwner c == some p) ||
    blockOf off 0x1608000 0x40 8 == some p

/-- What the physical function's BAR0 decodes before Eclosion (R391). -/
def bootSees (off : Nat) : Bool :=
  off == Reg.gctlId || off == Reg.feLink || off == Reg.ras || (0x1700000 ≤ off && off < 0x1800000)

/-- Whether an offset is decoded in a function's view now. -/
def State.decodes (s : State) (fn off : Nat) : Bool :=
  if fn = 0 then s.eclosed || bootSees off else s.vfSees (fn - 1) off

/-- Whether an access comes from a function that exists, of a device that is not off or in reset. -/
def State.reaches (s : State) (fn : Nat) : Bool := s.alive && s.fnExists fn

/-- A BAR0 write whose effect on the register it names is `t`: without effect where the function's view does not decode the
offset (R9), and dropped and counted during a stop (R433). -/
def regWriteRow (s : State) (fn off : Nat) (t : State) : Answer :=
  if 9 ≤ fn then .next s
  else if !s.reaches fn then .next s
  else if s.stopped && off != Reg.stopCtl && off != Reg.rasWindow then .next (s.bump Reg.stopDrops 0 32 1)
  else when (s.decodes fn off) s t

end Sys2Proof.Machine
end

