-- ==== Sys2Proof/Machine/Num.lean ====
section
/-!
DEFINITION. Number formats (R36 to R40), conversions and their flags (R42 to R45), shared scales (R48 to R53), FP32
arithmetic with one rounding (R59, R60) and the rotation (R63 to R66). A finite value is kept exactly, as a sign and a
natural number times a power of two, and rounded once at the end.
-/
namespace Sys2Proof.Machine

/-- An exact value: ± m · 2^e (with a signed zero), an infinity, or NaN. -/
inductive Val where
  | fin (neg : Bool) (m : Nat) (e : Int)
  | inf (neg : Bool)
  | nan
  deriving DecidableEq, Repr

/-- A floating-point format (R36): exponent and mantissa bits, bias, the code of the largest finite magnitude, whether it
has infinity, and its canonical NaN if it has NaN (R39). -/
structure FFmt where
  eb  : Nat
  mb  : Nat
  bias : Int
  maxCode : Nat
  hasInf : Bool
  nan : Option Nat
  deriving DecidableEq, Repr

def fp32 : FFmt := ⟨8, 23, 127, 0x7F7FFFFF, true, some 0x7FC00000⟩
def bf16 : FFmt := ⟨8, 7, 127, 0x7F7F, true, some 0x7FC0⟩
def fp16 : FFmt := ⟨5, 10, 15, 0x7BFF, true, some 0x7E00⟩
def e4m3 : FFmt := ⟨4, 3, 7, 0x7E, false, some 0x7F⟩
def e5m2 : FFmt := ⟨5, 2, 15, 0x7B, true, some 0x7E⟩
def e3m2 : FFmt := ⟨3, 2, 3, 0x1F, false, none⟩
def e2m3 : FFmt := ⟨2, 3, 1, 0x1F, false, none⟩
def e2m1 : FFmt := ⟨2, 1, 1, 0x7, false, none⟩

/-- The floating-point format of an element code; none for the integer formats and the reserved codes (R36). -/
def fmtOf (code : Nat) : Option FFmt :=
  match code with
  | 0 => some fp32
  | 1 => some bf16
  | 2 => some fp16
  | 3 => some e4m3
  | 4 => some e5m2
  | 5 => some e3m2
  | 6 => some e2m3
  | 7 => some e2m1
  | _ => none

/-- The width of an element in bits (R36). -/
def elemBits (code : Nat) : Nat :=
  match code with
  | 0 => 32
  | 1 => 16
  | 2 => 16
  | 5 => 6
  | 6 => 6
  | 7 => 4
  | 9 => 4
  | _ => 8

/-- Whether a code is an integer format. -/
def isInt (code : Nat) : Bool := code == 8 || code == 9

/-- The bits of a format without its sign. -/
def FFmt.mag (f : FFmt) : Nat := 2 ^ (f.eb + f.mb)

/-- The value a code of a floating-point format encodes (R36, R37). -/
def FFmt.decode (f : FFmt) (code : Nat) : Val :=
  let neg := code / f.mag % 2 == 1
  let c := code % f.mag
  let ex := c / 2 ^ f.mb
  let mant := c % 2 ^ f.mb
  let lsb : Int := 1 - f.bias - f.mb
  if f.maxCode < c then
    if f.hasInf && mant == 0 then .inf neg else if f.nan.isSome then .nan else .fin neg (mant + 2 ^ f.mb) (lsb + ex - 1)
  else if ex = 0 then .fin neg mant lsb
  else .fin neg (mant + 2 ^ f.mb) (lsb + ex - 1)

/-- The value of an element (R36, R38). -/
def elemVal (code x : Nat) : Val :=
  match fmtOf code with
  | some f => f.decode x
  | none =>
    let v := sgn (elemBits code) x
    .fin (v < 0) v.natAbs 0

/-! ## Rounding -/

/-- A rounding mode (R42): nearest even, toward zero, or up in magnitude. -/
inductive Rnd where
  | rne | rtz | rup
  deriving DecidableEq, Repr

/-- `m / 2^k` rounded (R42), on magnitudes. -/
def roundShift (r : Rnd) (m k : Nat) : Nat :=
  let q := m / 2 ^ k
  let rem := m % 2 ^ k
  match r with
  | .rtz => q
  | .rup => if rem = 0 then q else q + 1
  | .rne => if 2 * rem < 2 ^ k ∨ (2 * rem = 2 ^ k ∧ q % 2 = 0) then q else q + 1

/-- The magnitude code of `m · 2^e` rounded into a format as though its exponent range had no top (R43). -/
def FFmt.magCode (f : FFmt) (r : Rnd) (m : Nat) (e : Int) : Nat :=
  if m = 0 then 0 else
    let low : Int := 1 - f.bias - f.mb
    let lsb := max (e + Nat.log2 m - f.mb) low
    let q := if lsb ≤ e then m * 2 ^ (e - lsb).toNat else roundShift r m (lsb - e).toNat
    (lsb - low).toNat * 2 ^ f.mb + q

/-- The flags of R45. -/
def ovfSat : Nat := 1
def infSat : Nat := 2
def nanLost : Nat := 4
def nanIn : Nat := 8
def scaleSpecial : Nat := 16

/-- The code of infinity of a format that has it. -/
def FFmt.infCode (f : FFmt) : Nat := f.maxCode + 1

/-- A value converted into a floating-point format, with the flag it raises (R43, R44). -/
def FFmt.encode (f : FFmt) (r : Rnd) (ieee : Bool) (v : Val) : Nat × Nat :=
  let sg := fun (neg : Bool) => b2n neg * f.mag
  match v with
  | .nan => match f.nan with
    | some c => (c, nanIn)
    | none => (0, nanLost)
  | .inf neg => if f.hasInf then (sg neg + f.infCode, 0) else (sg neg + f.maxCode, infSat)
  | .fin neg m e =>
    let c := f.magCode r m e
    if c ≤ f.maxCode then (sg neg + c, 0)
    else if ieee && f.hasInf && r != .rtz then (sg neg + f.infCode, 0)
    else (sg neg + f.maxCode, ovfSat)

/-- A value converted into an integer format: rounded, then clamped to the symmetric range (R38, R44). -/
def intEncode (w : Nat) (r : Rnd) (v : Val) : Nat × Nat :=
  let top := 2 ^ (w - 1) - 1
  let sg := fun (neg : Bool) (x : Nat) => if neg then (2 ^ w - x) % 2 ^ w else x
  match v with
  | .nan => (0, nanLost)
  | .inf neg => (sg neg top, infSat)
  | .fin neg m e =>
    let q := if 0 ≤ e then m * 2 ^ e.toNat else roundShift r m (-e).toNat
    if q ≤ top then (sg neg q, 0) else (sg neg top, ovfSat)

/-- A value converted into an element format (R42 to R44). -/
def convElem (code : Nat) (r : Rnd) (ieee : Bool) (v : Val) : Nat × Nat :=
  match fmtOf code with
  | some f => f.encode r ieee v
  | none => intEncode (elemBits code) r v

/-! ## Exact arithmetic -/

/-- A value negated. -/
def Val.neg : Val → Val
  | .fin n m e => .fin (!n) m e
  | .inf n => .inf (!n)
  | .nan => .nan

/-- A product, exact (IEEE 754 for the specials, R57). -/
def Val.mul : Val → Val → Val
  | .nan, _ => .nan
  | _, .nan => .nan
  | .inf a, .inf b => .inf (a != b)
  | .inf a, .fin b m _ => if m = 0 then .nan else .inf (a != b)
  | .fin a m _, .inf b => if m = 0 then .nan else .inf (a != b)
  | .fin a m e, .fin b n f => .fin (a != b) (m * n) (e + f)

/-- A signed magnitude as an integer. -/
def signInt (neg : Bool) (m : Nat) : Int := if neg then -(m : Int) else m

/-- A sum, exact; an exact zero is +0 unless both terms are −0 (IEEE 754 under RNE). -/
def Val.add : Val → Val → Val
  | .nan, _ => .nan
  | _, .nan => .nan
  | .inf a, .inf b => if a = b then .inf a else .nan
  | .inf a, .fin _ _ _ => .inf a
  | .fin _ _ _, .inf b => .inf b
  | .fin a m e, .fin b n f =>
    let g := min e f
    let x := signInt a m * 2 ^ (e - g).toNat + signInt b n * 2 ^ (f - g).toNat
    if x = 0 then .fin (a && b) 0 g else .fin (x < 0) x.natAbs g

/-- The FP32 code nearest to a value (R59, R60, R39). -/
def toF32 (v : Val) : Nat := (fp32.encode .rne true v).1
/-- The value of an FP32 code. -/
def ofF32 (c : Nat) : Val := fp32.decode c
def fAdd (a b : Nat) : Nat := toF32 ((ofF32 a).add (ofF32 b))
def fSub (a b : Nat) : Nat := toF32 ((ofF32 a).add (ofF32 b).neg)
def fMul (a b : Nat) : Nat := toF32 ((ofF32 a).mul (ofF32 b))
/-- A fused multiply-add, rounded once. -/
def fFma (a b c : Nat) : Nat := toF32 (((ofF32 a).mul (ofF32 b)).add (ofF32 c))

/-- Whether `a < b` for values that are not NaN. -/
def Val.lt : Val → Val → Bool
  | .nan, _ => false
  | _, .nan => false
  | .inf a, .inf b => a && !b
  | .inf a, .fin _ _ _ => a
  | .fin _ _ _, .inf b => !b
  | .fin a m e, .fin b n f =>
    let g := min e f
    signInt a m * 2 ^ (e - g).toNat < signInt b n * 2 ^ (f - g).toNat

/-- Numeric equality: zeros equal, NaN unequal to everything. -/
def Val.eqv (a b : Val) : Bool := a != .nan && b != .nan && !a.lt b && !b.lt a

def Val.isFin : Val → Bool
  | .fin _ _ _ => true
  | _ => false
def Val.isZero : Val → Bool
  | .fin _ 0 _ => true
  | _ => false
/-- The magnitude of a value. -/
def Val.abs : Val → Val
  | .fin _ m e => .fin false m e
  | .inf _ => .inf false
  | .nan => .nan

/-- `a ÷ b` for a finite non-zero `b`, as 96 exact quotient bits and a sticky bit below them, so that one rounding of the
result is the rounding of the quotient. -/
def Val.div (a b : Val) : Val :=
  match a, b with
  | .fin x m e, .fin y n f =>
    if n = 0 then .nan else
      let q := m * 2 ^ 96 / n
      let st := b2n (m * 2 ^ 96 % n != 0)
      .fin (x != y) (2 * q + st) (e - f - 97)
  | .inf x, .fin y _ _ => .inf (x != y)
  | .nan, _ => .nan
  | _, _ => .nan

/-! ## Shared scales (R48, R51) -/

/-- The value of a scale code; SCALE_FMT 0 is no scale. A NaN scale is NaN. -/
def scaleVal (sf code : Nat) : Val :=
  match sf with
  | 1 => if code = 0xFF then .nan else .fin false 1 ((code : Int) - 127)
  | 2 => if code = 0x80 then .fin false 0 0 else e4m3.decode code
  | _ => .fin false 1 0

/-- Whether a scale code is a negative E4M3 scale, which makes the command fail (R48, R51). -/
def scaleNegative (sf code : Nat) : Bool := sf == 2 && 0x80 < code && code < 0xFF

/-- An element times its scale (R49, R51): NaN under a NaN scale, zero under a zero E4M3 scale whatever the element. -/
def scaled (sf sc : Nat) (v : Val) : Val :=
  match scaleVal sf sc with
  | .nan => .nan
  | .fin n 0 e => .fin n 0 e
  | x => v.mul x

/-- emax and maxval of an element format (R53). -/
def emaxOf (code : Nat) : Int :=
  match code with
  | 3 => 8
  | 4 => 15
  | 5 => 4
  | 6 => 2
  | 7 => 2
  | 8 => 6
  | _ => 2

def maxVal (code : Nat) : Val :=
  match fmtOf code with
  | some f => f.decode f.maxCode
  | none => .fin false (2 ^ (elemBits code - 1) - 1) 0

/-- The largest finite magnitude of a block. -/
def amaxOf (vs : List Val) : Val :=
  vs.foldl (fun a v => if v.isFin && a.lt v.abs then v.abs else a) (.fin false 0 0)

/-- The scale code a converter chooses for a block (R53). -/
def chooseScale (sf code : Nat) (vs : List Val) : Nat :=
  let a := amaxOf vs
  if vs.contains .nan then (if sf = 1 then 0xFF else 0x7F)
  else match a with
    | .fin _ m e =>
      if m = 0 then
        if vs.any (fun v => match v with | .inf _ => true | _ => false) then (if sf = 1 then 0x7F else 0x38) else 0
      else if sf = 1 then (max 0 (min 254 (e + Nat.log2 m - emaxOf code + 127))).toNat
      else min 0x7E (e4m3.magCode .rup (match a.div (maxVal code) with | .fin _ q _ => q | _ => 0)
                       (match a.div (maxVal code) with | .fin _ _ f => f | _ => 0))
    | _ => 0

/-- Whether the scale of a block is held at 448 (R53): its largest magnitude exceeds 448 times the format's largest value. -/
def scaleHeld (sf code : Nat) (vs : List Val) : Bool :=
  sf == 2 && ((maxVal code).mul (.fin false 448 0)).lt (amaxOf vs)

/-- A block converted to scaled form: scale code, element codes, flags (R53). A block with a NaN is written as +0. A block whose
scale is held raises OVF_SAT, also where the mode RTZ brings the quotient back to the largest value: R53's last sentence, which is
about these blocks, over the test after rounding of R43 (log entry 49). -/
def convBlock (sf code : Nat) (r : Rnd) (ieee : Bool) (vs : List Val) : Nat × List Nat × Nat :=
  let sc := chooseScale sf code vs
  if vs.contains .nan then (sc, vs.map (fun _ => 0), scaleSpecial)
  else if (amaxOf vs).isZero && !vs.any (fun v => match v with | .inf _ => true | _ => false) then
    (sc, vs.map (fun _ => 0), 0)
  else
    let rs := vs.map (fun v => convElem code r ieee (v.div (scaleVal sf sc)))
    (sc, rs.map (·.1), rs.foldl (fun f x => f ||| x.2) (if scaleHeld sf code vs then ovfSat else 0))

/-! ## Packing (R40) -/

/-- The `n` elements of `w` bits at the start of a row's bytes. -/
def unpack (w n : Nat) (bs : List Byte) : List Nat :=
  let x := leNat bs
  (List.range n).map (fun i => bits x (i * w) w)

/-- Elements packed from the least significant bit of the lowest byte upward. -/
def packNat (w : Nat) : List Nat → Nat
  | [] => 0
  | x :: xs => x % 2 ^ w + 2 ^ w * packNat w xs

/-- A row's packed bytes. -/
def pack (w : Nat) (xs : List Nat) : List Byte := leBytes (ceilDiv (w * xs.length) 8) (packNat w xs)

/-! ## Rotation (R63 to R65) -/

/-- One butterfly stage of stride `h` on FP32 codes. -/
def butterfly (h : Nat) (xs : List Nat) : List Nat :=
  (List.range xs.length).map (fun i =>
    if i / h % 2 = 0 then fAdd (xs.getD i 0) (xs.getD (i + h) 0) else fSub (xs.getD (i - h) 0) (xs.getD i 0))

/-- Stages from the lowest stride upward. -/
def butterflies : Nat → Nat → List Nat → List Nat
  | 0, _, xs => xs
  | k + 1, h, xs => butterflies k (2 * h) (butterfly h xs)

/-- The factor 1/√n, in the two steps of R65: the power of two exactly, and for odd log₂ n the FP32 value of 1/√2. -/
def rotScale (log2n x : Nat) : Val :=
  let y := (ofF32 x).mul (.fin false 1 (-((log2n / 2 : Nat) : Int)))
  if log2n % 2 = 0 then y else ofF32 (toF32 (y.mul (ofF32 0x3F3504F3)))

/-- The rotation of one run of 2^log2n values under a sign mask (R63 to R65), as the converter receives it. -/
def rotateRun (log2n : Nat) (mask : Nat → Bool) (xs : List Nat) : List Val :=
  let signed := xs.zipIdx.map (fun (x, i) => if mask i then toF32 (ofF32 x).neg else x)
  (butterflies log2n 1 signed).map (rotScale log2n)

/-! ## The accumulator-output converter (R70) -/

/-- The FP32 bounds of R70: NaN passes unchanged. -/
def clip32 (lo hi y : Nat) : Nat :=
  if ofF32 y = .nan then y else if (ofF32 y).lt (ofF32 lo) then lo else if (ofF32 hi).lt (ofF32 y) then hi else y

/-- What the converter makes of one accumulator: scale and bias with one rounding, then the bounds. -/
def accOut (c b lo hi acc : Nat) : Nat := clip32 lo hi (fFma acc c b)

/-- The canonical form of a row of the converter's outputs in an element format, in blocks of one shared scale: scale codes
and element codes under RNE and SAT (R53, R70). -/
def canonRow (sf code block : Nat) (ys : List Nat) : List Nat × List Nat :=
  if sf = 0 then ([], ys.map (fun y => (convElem code .rne false (ofF32 y)).1))
  else
    let bs := (chop block ys.length ys).map (fun blk => convBlock sf code .rne false (blk.map ofF32))
    (bs.map (·.1), bs.flatMap (·.2.1))

end Sys2Proof.Machine
end

