-- ==== Sys2Proof/Machine/Flags.lean ====
section
/-!
DEFINITION. The status flags of the device: the sticky conversion flags of a core and what they do to a command's status (R45 to
R47), and the flags of vector arithmetic as they reach a completion (R161).
-/
namespace Sys2Proof.Machine

/-- The conversion registers of a core after a conversion there (R47). -/
def State.noteConv (s : State) (core flags lost : Nat) : State :=
  (s.setFld (Reg.numFlags core) 0 5 (s.fld (Reg.numFlags core) 0 5 ||| flags)).bump (Reg.nanLost core) 0 32 lost

/-- The status and DETAIL of a command that converted (R45, R46). -/
def Cmd.convStatus (c : Cmd) (flags : Nat) : Nat × Nat :=
  if flags = 0 then (0x0000, 0)
  else if c.strictNan && bitB flags 2 then (0x0111, 0)
  else (0x0002, flags)

/-! ## Vector arithmetic -/

/-- Arithmetic flags joined to the run's (R161). -/
def State.addArith (s : State) (core fl : Nat) : State :=
  s.updCore core fun k => { k with run := k.run.map (fun r => { r with arith := r.arith ||| fl }) }

/-- Conversion flags joined to the run's (R45, R161). -/
def State.addConv (s : State) (core fl : Nat) : State :=
  s.updCore core fun k => { k with run := k.run.map (fun r => { r with conv := r.conv ||| fl }) }

def fInvalid : Nat := 1
def fDivZero : Nat := 2
def fOverflow : Nat := 4

/-- Whether an FP32 code is NaN, or finite. -/
def isNan32 (x : Nat) : Bool := ofF32 x == .nan
def isFin32 (x : Nat) : Bool := (ofF32 x).isFin

/-- The flags of an FP32 result from its operands (R161). -/
def arithFlags (args : List Nat) (r : Nat) : Nat :=
  (if isNan32 r && !args.any isNan32 then fInvalid else 0) +
    (if !isNan32 r && !isFin32 r && args.all isFin32 then fOverflow else 0)

end Sys2Proof.Machine
end

