-- ==== Sys2Proof/Machine/Compress.lean ====
section
/-!
DEFINITION. The lossless block code (R108 to R115, R122): decode tables, the coded block, CHECK, and the compressor's choice of
block type.
-/
namespace Sys2Proof.Machine

/-- The code length a table image gives a byte value (R114). -/
def codeLen (img : List Byte) (v : Nat) : Nat := bits ((img[v / 2]?.getD 0).toNat) (4 * (v % 2)) 4

/-- The codewords of a table, by the procedure of R115: value, length, codeword. -/
def codewords (img : List Byte) : List (Nat × Nat × Nat) :=
  ((List.range 12).foldl (fun (acc : List (Nat × Nat × Nat) × Nat) l =>
    let r := (List.range 256).foldl (fun (a : List (Nat × Nat × Nat) × Nat) v =>
      if v ≠ 0 ∧ codeLen img v = l + 1 then (a.1 ++ [(v, l + 1, a.2)], a.2 + 1) else a) acc
    (r.1, r.2 * 2)) ([], 0)).1

/-- Whether a table image is valid (R114, R115): lengths 0 to 12, none for value 0, the fixed tail, some value coded, and the
Kraft sum at most 1. -/
def tableValid (img : List Byte) : Bool :=
  let ls := (List.range 256).map (codeLen img)
  img.length == 256 && ls.all (· ≤ 12) && ls.getD 0 1 == 0 && img[128]?.getD 0 == 1 &&
    (img.drop 129).all (· == 0) && ls.any (· != 0) &&
    (ls.filter (· != 0)).foldl (fun a l => a + 2 ^ (12 - l)) 0 ≤ 4096

/-- CHECK of 128 raw bytes (R112). -/
def checkSum (bs : List Byte) : Nat := bs.zipIdx.foldl (fun a x => a + (x.2 + 1) * x.1.toNat) 0

/-- The bits of a byte list in order, bit 0 of byte 0 first (R111). -/
def bitList (bs : List Byte) : List Bool := bs.flatMap (fun (b : Byte) => (List.range 8).map (bitB b.toNat))

/-- One code read from a bit string, most significant code bit first; the value, and the rest. -/
def readCode (cw : List (Nat × Nat × Nat)) : Nat → Nat → Nat → List Bool → Option (Nat × List Bool)
  | 0, _, _, _ => none
  | _ + 1, _, _, [] => none
  | fuel + 1, len, acc, b :: bs =>
    let acc := 2 * acc + b2n b
    match cw.find? (fun c => c.2.1 == len + 1 && c.2.2 == acc) with
    | some c => some (c.1, bs)
    | none => readCode cw fuel (len + 1) acc bs

/-- The bytes that the set bits of a mask stand for, and the payload bits left; none where a code does not exist. -/
def readMasked (cw : List (Nat × Nat × Nat)) : List Bool → List Bool → Option (List Byte × List Bool)
  | [], p => some ([], p)
  | false :: ms, p => (readMasked cw ms p).map (fun r => (0 :: r.1, r.2))
  | true :: ms, p =>
    match readCode cw 12 0 0 p with
    | none => none
    | some (v, p') => (readMasked cw ms p').map (fun r => (BitVec.ofNat 8 v :: r.1, r.2))

/-- Why a block does not decode: the REASON of R138 for an invalid block, or a table status of R116 and R117. -/
inductive BlockErr where
  | invalid (reason : Nat)
  | table (status : Nat)
  deriving DecidableEq, Repr

/-- The fields of a coded block's header that decide validity before its table is used (R113). -/
def headerOk (b : List Byte) : Bool :=
  let h := num b 2 2
  num b 1 1 < 128 && h < 2 ^ 13 && 1 ≤ h % 1024 && h % 1024 ≤ 704 && 2 ≤ h / 1024 && h / 1024 ≤ 7 &&
    h / 1024 == ceilDiv (24 + ceilDiv (h % 1024) 8) 16

/-- The 128 raw bytes of a coded block under its table's image (R111, R113). -/
def decodeCoded (img b : List Byte) : Except BlockErr (List Byte) :=
  let mask := bitList ((b.drop 8).take 16)
  let codeBits := num b 2 2 % 1024
  if !headerOk b then .error (.invalid 1)
  else if (mask.filter id).length ≠ num b 1 1 + 1 then .error (.invalid 2)
  else match readMasked (codewords img) mask (bitList (b.drop 24)) with
    | none => .error (.invalid 3)
    | some (raw, rest) =>
      if (b.drop 24).length * 8 - rest.length ≠ codeBits then .error (.invalid 4)
      else if checkSum raw ≠ num b 4 4 then .error (.invalid 5)
      else .ok raw

/-- The payload bits of the non-zero bytes, each code most significant bit first (R111). -/
def payloadBits (cw : List (Nat × Nat × Nat)) (raw : List Byte) : List Bool :=
  raw.flatMap (fun (b : Byte) => match cw.find? (fun c => c.1 == b.toNat && b != 0) with
    | some c => (List.range c.2.1).map (fun i => bitB c.2.2 (c.2.1 - 1 - i))
    | none => [])

/-- A bit string packed into bytes, bit 0 of byte 0 first. -/
def bitsToNat : List Bool → Nat
  | [] => 0
  | b :: bs => b2n b + 2 * bitsToNat bs

/-- A compressed block: its directory TYPE and the bytes it stores (R122). -/
def compressBlock (table : Option (Nat × Nat × List Byte)) (raw : List Byte) : Nat × List Byte :=
  if raw.all (· == 0) then (0, [])
  else match table with
    | none => (1, raw)
    | some (id, gen, img) =>
      if raw.any (fun (b : Byte) => b != 0 && codeLen img b.toNat == 0) then (1, raw)
      else
        let p := payloadBits (codewords img) raw
        let g := ceilDiv (24 + ceilDiv p.length 8) 16
        if 7 < g then (1, raw)
        else
          let nz := (raw.filter (· != 0)).length
          let mask := bitsToNat (raw.map (· != 0))
          (2, padTo (16 * g) (leBytes 1 (id + 64 * gen) ++ leBytes 1 (nz - 1) ++ leBytes 2 (p.length + 1024 * g) ++
            leBytes 4 (checkSum raw) ++ leBytes 16 mask ++ leBytes (ceilDiv p.length 8) (bitsToNat p)))

end Sys2Proof.Machine
end

