-- ==== Sys2Proof/Machine/Operands.lean ====
section
/-!
DEFINITION. Every operand form of a command: parameter addresses (R298), the operand format word (R50), tensor descriptors
(R300) with their layout (R41, R52), compressed tensors (R107 to R109), and how a tensor's rows are read as exact values and
written back converted (R42 to R53).
-/
namespace Sys2Proof.Machine

/-! ## Errors of an operand -/

/-- Why an operand ends its command: a status, a failed access, or a block that does not decode (its directory index and
REASON, R138). -/
inductive OpErr where
  | status (st : Nat)
  | access (e : AccErr)
  | block (st index reason : Nat)
  deriving DecidableEq, Repr

/-- An invalid block recorded in CORE_n_CMP_ERROR, and its `n` CHECK mismatches counted (R113, R137, R138). -/
def State.noteBlock (s : State) (core i r n : Nat) : State :=
  let s := s.setReg (Reg.decodeErr core) (BitVec.ofNat 32 (i % 2 ^ 24 + r * 2 ^ 24 + 2 ^ 31))
  if r = 5 then s.count core 0x26 n else s

/-- A command ended by an operand's error: the access is reported, or the block recorded in CORE_n_CMP_ERROR (R113). The path
decoder has decoded a block that fails CHECK twice (R126, R334). -/
def OpErr.res (s : State) (core : Nat) : OpErr → Res
  | .status st => .done s st 0 none
  | .access e => .fail s e
  | .block st i r => .done (s.noteBlock core i r 2) st 0 none

/-! ## Addresses -/

/-- The size of a core's SRAM (R17). -/
def sramBytes : Nat := 0xC00000

/-- A parameter address (R298): the SRAM form only where the field accepts it, and of a core of the partition. -/
def State.parseLoc (s : State) (p a : Nat) (sramOk : Bool) : Except Nat Loc :=
  if a < 2 ^ 56 then .ok (.dva a)
  else if sramOk && a / 2 ^ 56 == 0x80 && bits a 29 27 == 0 && bits a 0 24 < sramBytes then
    if (s.coresOf p).contains (bits a 24 5) then .ok (.sram (bits a 24 5) (bits a 0 24)) else .error 0x0911
  else .error 0x0104

/-! ## The operand format word and the tensor descriptor -/

/-- A tensor operand (R300) with its format word taken apart (R50). -/
structure Tensor where
  loc    : Loc
  scale  : Nat
  rows   : Nat
  cols   : Nat
  stride : Nat
  word   : Nat
  packed : Bool
  deriving DecidableEq, Repr

def Tensor.elem (t : Tensor) : Nat := bits t.word 0 4
def Tensor.sf (t : Tensor) : Nat := bits t.word 4 2
/-- Block size in elements. -/
def Tensor.block (t : Tensor) : Nat := 16 * 2 ^ bits t.word 6 2
def Tensor.across (t : Tensor) : Bool := bitB t.word 8
def Tensor.group (t : Tensor) : Nat := bits t.word 9 2
/-- Packed bytes of one row of the data plane (R40). -/
def Tensor.rowBytes (t : Tensor) : Nat := ceilDiv (t.cols * elemBits t.elem) 8

/-- Whether a format word is one R50 accepts. -/
def wordOk (w : Nat) : Bool :=
  bits w 0 4 ≤ 9 && bits w 4 2 != 3 && bits w 12 4 == 0 && (3 ≤ bits w 0 4 || bits w 4 2 == 0)

/-- Whether an address is on a 64-byte boundary. -/
def Loc.aligned : Loc → Bool
  | .dva a => a % 64 == 0
  | .sram _ o => o % 64 == 0

/-- The bytes of the data plane from its first to its last row. -/
def Tensor.extent (t : Tensor) : Nat := (t.rows - 1) * t.stride + t.rowBytes

/-- Whether the data plane ends within the memory it begins in: no SRAM offset of R17 lies beyond its core's SRAM, so a plane that
runs over the end names no memory, like an address R298 rejects (DEDUCED, log entry 50). -/
def Tensor.fits (t : Tensor) : Bool :=
  match t.loc with
  | .dva _ => true
  | .sram _ o => o + t.extent ≤ sramBytes

/-- Whether a tensor keeps the layout rules of R41 and R52. A row stores one of `div` of its elements: 2 for 2:4 weights (R95). -/
def Tensor.layoutOk (t : Tensor) (div : Nat) : Bool :=
  t.loc.aligned && (t.sf == 0 || t.scale % 64 == 0) && (8 ≤ elemBits t.elem || t.cols % 8 == 0) &&
    (t.packed || (t.stride % 64 == 0 && ({ t with cols := t.cols / div } : Tensor).rowBytes ≤ t.stride))

/-- The 32-byte tensor descriptor at byte `o` of a block (R300), with the first check it fails: reserved bits (R285), the
address forms (R298), the format word (R50), empty shapes, the layout (R41), the end of an SRAM plane. ADDR off its 64-byte
boundary is 0x0114 for a compressed-tensor descriptor as for a data plane (DESIGN CHOICE, log entry 51). The result of a tensor
that stores one of `div` of its elements has the stored COLS. -/
def State.parseTensor (s : State) (p : Nat) (b : List Byte) (o : Nat) (sramOk : Bool) (div : Nat := 1) : Except Nat Tensor :=
  if num b (o + 30) 1 / 2 ≠ 0 ∨ num b (o + 31) 1 ≠ 0 then .error 0x0103
  else match s.parseLoc p (num b o 8) sramOk with
    | .error e => .error e
    | .ok loc =>
      let t : Tensor := { loc, scale := num b (o + 8) 8, rows := num b (o + 16) 4, cols := num b (o + 20) 4,
                          stride := num b (o + 24) 4, word := num b (o + 28) 2, packed := num b (o + 30) 1 % 2 == 1 }
      if !wordOk t.word then .error 0x0110
      else if t.sf ≠ 0 ∧ !dvaOk t.scale then .error 0x0104
      else if t.rows = 0 ∨ t.cols = 0 then .error 0x0116
      else if !t.layoutOk div then .error 0x0114
      else if !t.packed ∧ !t.fits then .error 0x0104
      else .ok { t with cols := t.cols / div }

/-- The scale plane's bytes: one per block (R52). -/
def Tensor.scaleBytes (t : Tensor) : Nat :=
  if t.across then ceilDiv t.rows t.block * t.cols else t.rows * ceilDiv t.cols t.block

/-- Where the scale of element `(m, k)` sits in the scale plane (R52). -/
def Tensor.scaleIdx (t : Tensor) (m k : Nat) : Nat :=
  if t.across then m / t.block * t.cols + k else m * ceilDiv t.cols t.block + k / t.block

/-! ## Compressed tensors -/

/-- A compressed-tensor descriptor (R107). -/
structure CTensor where
  dir    : Nat
  heap0  : Nat
  gran0  : Nat
  heap1  : Nat
  gran1  : Nat
  rows   : Nat
  rowB   : Nat
  table  : Option Nat
  deriving DecidableEq, Repr

/-- Blocks of a row (R108). -/
def CTensor.perRow (c : CTensor) : Nat := ceilDiv c.rowB 128

/-- The descriptor read from its 64 bytes; 0x0607 for a bad one (R107). -/
def parseCTensor (b : List Byte) : Except Nat CTensor :=
  let c : CTensor := { dir := num b 0 8, heap0 := num b 8 8, gran0 := num b 16 4, gran1 := num b 20 4, heap1 := num b 24 8,
                       rows := num b 32 4, rowB := num b 36 4,
                       table := if bitB (num b 48 1) 6 then none else some (num b 48 1 % 64) }
  if num b 49 15 ≠ 0 ∨ 128 ≤ num b 48 1 then .error 0x0607
  else if c.dir % 64 ≠ 0 ∨ c.heap0 % 16 ≠ 0 ∨ (c.gran1 ≠ 0 ∧ c.heap1 % 16 ≠ 0) ∨ !dvaOk c.dir ∨ !dvaOk c.heap0 ∨
      (c.gran1 ≠ 0 ∧ !dvaOk c.heap1) then .error 0x0607
  else if c.rows = 0 ∨ 16777216 < c.rows ∨ c.rowB = 0 ∨ 2097152 < c.rowB then .error 0x0607
  else .ok c

/-- Whether a partition owns a table ID (R116). -/
def State.ownsTable (s : State) (p id : Nat) : Bool := s.ownsSlice p (id / 8)

/-- Lifts an access error. -/
def liftAcc {α : Type} : Except AccErr α → Except OpErr α
  | .ok a => .ok a
  | .error e => .error (.access e)

/-- The 128 raw bytes of a directory entry's block (R108, R109, R113, R116, R117). Where a block breaks several rules the first of
these answers: its entry, its header, the heap's end (0x0601 with REASON 6), its table, its codes and CHECK; R113 orders only some
of them (DESIGN CHOICE, log entry 52). -/
def State.readBlock (s : State) (a : Acc) (c : CTensor) (i : Nat) : Except OpErr (List Byte) :=
  match s.readDva a (c.dir + 4 * i) 4 with
  | .error e => .error (.access e)
  | .ok ent =>
    let e := leNat ent
    let off := bits e 0 28
    let heap := if bitB e 28 then c.heap1 else c.heap0
    let gran := if bitB e 28 then c.gran1 else c.gran0
    match bits e 29 2 with
    | 0 => if off ≠ 0 ∨ bitB e 31 then .error (.block 0x0601 i 6) else .ok (List.replicate 128 0)
    | 1 =>
      if bitB e 31 ∨ gran < off + 8 then .error (.block 0x0601 i 6) else liftAcc (s.readDva a (heap + 16 * off) 128)
    | 2 =>
      if bitB e 31 ∨ gran < off + 2 then .error (.block 0x0601 i 6) else
      match s.readDva a (heap + 16 * off) 32 with
      | .error er => .error (.access er)
      | .ok hd =>
        let id := num hd 0 1 % 64
        let t := s.dtab id
        if !headerOk hd then .error (.block 0x0601 i 1)
        else if gran < off + num hd 2 2 / 1024 then .error (.block 0x0601 i 6)
        else if !s.ownsTable a.part id then .error (.status 0x0605)
        else if !t.valid then .error (.status 0x0602)
        else if num hd 0 1 / 64 ≠ t.gen then .error (.status 0x0603)
        else match s.readDva a (heap + 16 * off) (16 * (num hd 2 2 / 1024)) with
          | .error er => .error (.access er)
          | .ok b => match decodeCoded t.image b with
            | .ok raw => .ok raw
            | .error (.invalid r) => .error (.block 0x0601 i r)
            | .error (.table st) => .error (.status st)
    | _ => .error (.block 0x0601 i 6)

/-- The blocks of a row, joined and cut to its length. -/
def State.readBlocks (s : State) (a : Acc) (c : CTensor) : List Nat → Except OpErr (List Byte)
  | [] => .ok []
  | i :: is =>
    match s.readBlock a c i with
    | .error e => .error e
    | .ok b =>
      match s.readBlocks a c is with
      | .error e => .error e
      | .ok r => .ok (b ++ r)

def State.readCRow (s : State) (a : Acc) (c : CTensor) (m : Nat) : Except OpErr (List Byte) :=
  match s.readBlocks a c ((List.range c.perRow).map (m * c.perRow + ·)) with
  | .error e => .error e
  | .ok b => .ok (b.take c.rowB)

/-- The compressed descriptor a tensor names, if it is compressed; its shape must agree (R300). -/
def State.openTensor (s : State) (a : Acc) (t : Tensor) : Except OpErr (Option CTensor) :=
  if !t.packed then .ok none
  else match t.loc with
    | .sram _ _ => .error (.status 0x0607)
    | .dva d =>
      match s.readDva a d 64 with
      | .error e => .error (.access e)
      | .ok b => match parseCTensor b with
        | .error st => .error (.status st)
        | .ok c => if c.rows ≠ t.rows ∨ c.rowB ≠ t.rowBytes then .error (.status 0x0116) else .ok (some c)

/-! ## Rows as values -/

/-- The raw bytes of row `m`. -/
def State.rowBytes (s : State) (a : Acc) (t : Tensor) (c : Option CTensor) (m : Nat) : Except OpErr (List Byte) :=
  match c with
  | some c => s.readCRow a c m
  | none => liftAcc (s.readLoc a (t.loc.plus (m * t.stride)) t.rowBytes)

/-- The values of an element row under its scale codes (R49, R51); 0x0112 for a negative scale. -/
def rowVals (t : Tensor) (scales : List Nat) (codes : List Nat) : Except OpErr (List Val) :=
  if scales.any (scaleNegative t.sf) then .error (.status 0x0112)
  else .ok ((codes.zip scales).map (fun (x, sc) => scaled t.sf sc (elemVal t.elem x)))

/-- The scale codes of row `m`, one per element (R52). -/
def State.rowScales (s : State) (a : Acc) (t : Tensor) (m : Nat) : Except OpErr (List Nat) :=
  if t.sf = 0 then .ok (List.replicate t.cols 0)
  else
    let first := t.scaleIdx m 0
    let n := if t.across then t.cols else ceilDiv t.cols t.block
    match s.readDva a (t.scale + first) n with
    | .error e => .error (.access e)
    | .ok b => .ok ((List.range t.cols).map (fun k => (b[t.scaleIdx m k - first]?.getD 0).toNat))

/-- The values of row `m` of a tensor. -/
def State.readRow (s : State) (a : Acc) (t : Tensor) (c : Option CTensor) (m : Nat) : Except OpErr (List Val) :=
  match s.rowBytes a t c m with
  | .error e => .error e
  | .ok bs =>
    match s.rowScales a t m with
    | .error e => .error e
    | .ok sc => rowVals t sc (unpack (elemBits t.elem) t.cols bs)

/-- The listed rows of a tensor; the first error ends the read. -/
def State.readRows (s : State) (a : Acc) (t : Tensor) (c : Option CTensor) : List Nat → Except OpErr (List (List Val))
  | [] => .ok []
  | m :: ms =>
    match s.readRow a t c m with
    | .error e => .error e
    | .ok r =>
      match s.readRows a t c ms with
      | .error e => .error e
      | .ok rs => .ok (r :: rs)

/-- Every row of a tensor. -/
def State.readTensor (s : State) (a : Acc) (t : Tensor) : Except OpErr (List (List Val)) :=
  match s.openTensor a t with
  | .error e => .error e
  | .ok c => s.readRows a t c (List.range t.rows)

/-! ## Conversion of a whole tensor -/

/-- What a conversion gives: element codes by row, scale-plane bytes in order, flags (R45), NaNs replaced by +0 (R47). -/
structure Conv where
  codes  : List (List Nat)
  scales : List Nat
  flags  : Nat
  lost   : Nat
  deriving DecidableEq, Repr

/-- One row converted with blocks along it (R53). -/
def convRow (t : Tensor) (r : Rnd) (ieee : Bool) (row : List Val) : List Nat × List Nat × Nat :=
  if t.sf = 0 then
    let xs := row.map (convElem t.elem r ieee)
    (xs.map (·.1), [], xs.foldl (fun f x => f ||| x.2) 0)
  else
    let bs := (chop t.block row.length row).map (convBlock t.sf t.elem r ieee)
    (bs.flatMap (·.2.1), bs.map (·.1), bs.foldl (fun f x => f ||| x.2.2) 0)

/-- Whether a format has no NaN. -/
def noNan (code : Nat) : Bool := match fmtOf code with | some f => f.nan.isNone | none => true

/-- A block of rows converted with one scale per column (R50, R53). -/
def convRowsAcross (t : Tensor) (r : Rnd) (ieee : Bool) (rows : List (List Val)) : List (List Nat) × List Nat × Nat :=
  let cols := (List.range t.cols).map (fun k => convBlock t.sf t.elem r ieee (rows.map (fun row => row.getD k .nan)))
  ((List.range rows.length).map (fun m => cols.map (fun c => c.2.1.getD m 0)), cols.map (·.1),
    cols.foldl (fun f c => f ||| c.2.2) 0)

/-- Every row converted into a tensor's format (R42 to R44, R53). -/
def convTensor (t : Tensor) (r : Rnd) (ieee : Bool) (rows : List (List Val)) : Conv :=
  let lost := if t.sf = 0 && noNan t.elem then
    rows.foldl (fun n row => n + (row.filter (· == .nan)).length) 0 else 0
  if t.sf ≠ 0 ∧ t.across then
    let bs := (chop t.block rows.length rows).map (convRowsAcross t r ieee)
    { codes := bs.flatMap (·.1), scales := bs.flatMap (·.2.1), flags := bs.foldl (fun f b => f ||| b.2.2) 0, lost }
  else
    let rs := rows.map (convRow t r ieee)
    { codes := rs.map (·.1), scales := rs.flatMap (·.2.1), flags := rs.foldl (fun f x => f ||| x.2.2) 0, lost }

/-! ## Writing -/

/-- Bytes that the spec leaves open (R139, R214): the draw's free bytes over a range, as far as it may be written. -/
def State.fillFree (s : State) (a : Acc) (l : Loc) (n : Nat) : State :=
  let bs := (List.range n).map (Config.freeByte s.free)
  ((piecesOf l.start n).foldl (fun (s : State) p =>
    (s.writeLoc a (l.plus (p.1 - l.start)) ((bs.drop (p.1 - l.start)).take p.2)).1) s).draw

/-- A tensor's destination left with partial results (R139, R214): free bytes in its data and scale planes. -/
def State.freeTensor (s : State) (a : Acc) (t : Tensor) : State :=
  let s := if t.packed then s else s.fillFree a t.loc t.extent
  if t.sf = 0 then s else s.fillFree a (.dva t.scale) t.scaleBytes

/-- A tensor's plain data plane written row by row. -/
def State.writeRows (s : State) (a : Acc) (t : Tensor) : Nat → List (List Byte) → State × Option AccErr
  | _, [] => (s, none)
  | m, r :: rs =>
    match s.writeLoc a (t.loc.plus (m * t.stride)) r with
    | (s', some e) => (s', some e)
    | (s', none) => s'.writeRows a t (m + 1) rs

/-- The heaps of a compressor as it fills them: granules used of each, and whether the primary is closed (R123). -/
structure Heap where
  used0 : Nat := 0
  used1 : Nat := 0
  ovr   : Bool := false
  deriving DecidableEq, Repr

/-- Where the next block of `g` granules goes: the lowest free granule, in directory order (R123; log entry 53). -/
def Heap.place (h : Heap) (c : CTensor) (g : Nat) : Option (Heap × Bool × Nat) :=
  if !h.ovr ∧ h.used0 + g ≤ c.gran0 then some ({ h with used0 := h.used0 + g }, false, h.used0)
  else if h.used1 + g ≤ c.gran1 then some ({ h with ovr := true, used1 := h.used1 + g }, true, h.used1)
  else none

/-- The blocks of a tensor compressed and written in order, each with its directory entry (R122, R123); 0x0606 where no heap
has room. -/
def State.writeBlocks (s : State) (a : Acc) (c : CTensor) (table : Option (Nat × Nat × List Byte)) :
    Nat → Heap → List (List Byte) → State × Heap × Option OpErr
  | _, h, [] => (s, h, none)
  | i, h, raw :: rest =>
    let blk := compressBlock table raw
    let g := blk.2.length / 16
    let placed := if g = 0 then some (h, false, 0) else h.place c g
    match placed with
    | none => (s, h, some (.status 0x0606))
    | some (h', hi, off) =>
      let heap := if hi then c.heap1 else c.heap0
      match s.writeDva a (heap + 16 * off) blk.2 with
      | (s1, some e) => (s1, h, some (.access e))
      | (s1, none) =>
        match s1.writeDva a (c.dir + 4 * i) (leBytes 4 (off + b2n hi * 2 ^ 28 + blk.1 * 2 ^ 29)) with
        | (s2, some e) => (s2, h', some (.access e))
        | (s2, none) => s2.writeBlocks a c table (i + 1) h' rest

/-- A row's raw bytes cut into padded blocks (R108). -/
def rowBlocks (bs : List Byte) : List (List Byte) := (chop 128 (bs.length + 1) bs).map (padTo 128)

/-- The table a producer codes with, or the status that stops it (R116). -/
def State.producerTable (s : State) (p : Nat) (c : CTensor) : Except Nat (Option (Nat × Nat × List Byte)) :=
  match c.table with
  | none => .ok none
  | some id =>
    if !s.ownsTable p id then .error 0x0605
    else if !(s.dtab id).valid then .error 0x0602
    else .ok (some (id, (s.dtab id).gen, (s.dtab id).image))

/-- Rows of raw bytes written to a tensor, compressed if it is (R122 to R124); USED0 and USED1 are set at the end (R107). -/
def State.storeBytes (s : State) (a : Acc) (t : Tensor) (c : Option CTensor) (rows : List (List Byte)) :
    State × Option OpErr :=
  match c with
  | none =>
    match s.writeRows a t 0 rows with
    | (s', some e) => (s'.fillFree a t.loc t.extent, some (.access e))
    | (s', none) => (s', none)
  | some c =>
    match s.producerTable a.part c with
    | .error st => (s, some (.status st))
    | .ok table =>
      match s.writeBlocks a c table 0 {} (rows.flatMap rowBlocks) with
      | (s', _, some e) => (s', some e)
      | (s', h, none) =>
        match t.loc with
        | .dva d =>
          match s'.writeDva a (d + 40) (leBytes 4 h.used0 ++ leBytes 4 h.used1) with
          | (s2, some e) => (s2, some (.access e))
          | (s2, none) => (s2, none)
        | .sram _ _ => (s', none)

/-- A converted tensor written: data plane, then scale plane (R52). -/
def State.storeConv (s : State) (a : Acc) (t : Tensor) (c : Option CTensor) (x : Conv) : State × Option OpErr :=
  match s.storeBytes a t c (x.codes.map (pack (elemBits t.elem))) with
  | (s1, some e) => (s1, some e)
  | (s1, none) =>
    if t.sf = 0 then (s1, none)
    else match s1.writeDva a t.scale (x.scales.map (BitVec.ofNat 8)) with
      | (s2, some e) => (s2, some (.access e))
      | (s2, none) => (s2, none)

end Sys2Proof.Machine
end

