-- ==== Sys2Proof/Machine/Ranges.lean ====
section
/-!
DEFINITION. The range table (R233, R234): which cores a command uses, the ranges it reads and writes there, and when a command
must wait for an earlier one. DMA engine selection (R301, R337) is here too.
-/
namespace Sys2Proof.Machine

/-- A range of a command: of an address space (`sram` false, `space` the ASID) or of a core's SRAM (`space` the core). -/
structure Rng where
  sram  : Bool
  space : Nat
  lo    : Nat
  len   : Nat
  write : Bool
  deriving DecidableEq, Repr

/-- Whether two ranges, rounded outward to 64-byte units, overlap and one of them writes (R233). -/
def Rng.clash (a b : Rng) : Bool :=
  a.sram == b.sram && a.space == b.space && (a.write || b.write) && 0 < a.len && 0 < b.len &&
    a.lo / 64 ≤ (b.lo + b.len - 1) / 64 && b.lo / 64 ≤ (a.lo + a.len - 1) / 64

/-- Whether a core's DMA engine is in service (R335, R337). -/
def State.dmaServes (s : State) (c : Nat) : Bool := s.fld (Reg.dmaFault c) 0 1 == 0

/-- The core of an SRAM address, if it is one (R298). -/
def sramCore (a : Nat) : Option Nat := if a / 2 ^ 56 = 0x80 then some (bits a 24 5) else none

/-- The core whose DMA engine an ENGINE field selects: 0x1F takes the core of the SRAM operand, the source's first, else the
lowest core whose engine is in service (R301, R337). -/
def State.engineCore (s : State) (p field src dst : Nat) : Nat :=
  if field ≠ 0x1F then field
  else match sramCore src, sramCore dst with
    | some c, _ => c
    | none, some c => c
    | none, none => ((s.coresOf p).find? s.dmaServes).getD (3 * s.firstSlice p)

/-- The range of a parameter address. -/
def addrRng (asid a n : Nat) (write : Bool) : Rng :=
  match sramCore a with
  | some c => ⟨true, c, bits a 0 24, n, write⟩
  | none => ⟨false, asid, a, n, write⟩

/-- The whole address space of an ASID (R234). -/
def wholeAsid (asid : Nat) (write : Bool) : Rng := ⟨false, asid, 0, 2 ^ 56, write⟩

/-- The ranges of the tensor descriptor at byte `o` of a block: its data plane and scale plane, or directory and heaps
(R234). Where a compressed-tensor descriptor cannot be seen, in host memory, the whole address space stands for them. -/
def State.tensorRngs (s : State) (a : Acc) (b : List Byte) (o : Nat) (write : Bool) : List Rng :=
  let t : Tensor := { loc := .dva 0, scale := num b (o + 8) 8, rows := num b (o + 16) 4, cols := num b (o + 20) 4,
                      stride := num b (o + 24) 4, word := num b (o + 28) 2, packed := num b (o + 30) 1 % 2 == 1 }
  let data := if t.packed then
      if !(s.hostRanges a (num b o 8) 64).isEmpty then [wholeAsid a.asid write]
      else match s.readDva a (num b o 8) 64 with
      | .ok d => match parseCTensor d with
        | .ok c => [⟨false, a.asid, c.dir, 4 * c.rows * c.perRow, write⟩, ⟨false, a.asid, c.heap0, 16 * c.gran0, write⟩,
                    ⟨false, a.asid, c.heap1, 16 * c.gran1, write⟩, ⟨false, a.asid, num b o 8, 64, write⟩]
        | .error _ => [addrRng a.asid (num b o 8) 64 write]
      | .error _ => [addrRng a.asid (num b o 8) 64 write]
    else [addrRng a.asid (num b o 8) t.extent write]
  if t.sf = 0 then data else data ++ [⟨false, a.asid, t.scale, t.scaleBytes, write⟩]

/-- The size of a command's parameter block, as its row of R306 gives it; none where it has none. VECTOR_RUN's block is its
parameters (R301). -/
def Cmd.blockSize (c : Cmd) : Option Nat :=
  match c.op with
  | 0x11 => some 96
  | 0x20 => some 128
  | 0x21 => some 192
  | 0x22 => if c.f 40 0 32 = 0 then none else some (if c.f 40 0 32 ≤ 128 ∧ c.f 40 0 32 % 8 = 0 then c.f 40 0 32 else 0)
  | 0x23 => some 96
  | 0x24 => some 96
  | 0x25 => some 128
  | 0x26 => some 128
  | 0x27 => some 96
  | 0x30 => some 96
  | 0x40 => some 64
  | 0x41 => some 64
  | 0x42 => some 128
  | 0x80 => if c.f 48 1 1 = 1 then none else some 64
  | 0x82 => if c.f 49 0 8 ≤ 1 then some 64 else none
  | 0x87 => some 128
  | 0x88 => some 1728
  | 0x89 => some 128
  | 0x8A => some 64
  | 0x8B => some 64
  | _ => none

/-- The size of a slot of a tag: Z of R167. -/
def slotBytes (heads dim tag : Nat) : Nat :=
  let plane := 16 * heads * dim
  let scales := if bits tag 4 2 = 0 then 0 else 2 * (plane / (16 * 2 ^ bits tag 6 2))
  alignUp (64 + 2 * (plane * elemBits (tag % 16) / 8) + scales) 64

/-- The slot size of a pool. -/
def Pool.slot (pl : Pool) : Nat := slotBytes pl.heads pl.dim pl.tag

/-- The slot areas of a partition's pools, each in the pool's own address space (R167, R234). -/
def State.slotAreas (s : State) (p : Nat) (write : Bool) : List Rng :=
  (s.part p).pools.map (fun e => ⟨false, e.2.asid, e.2.base, e.2.pages * e.2.layers * e.2.slot, write⟩)

/-- The planes of the stationary operand of expert `e` (R52, R95, R98, R302): data, scales, metadata and bitmap. -/
def weightRngs (asid : Nat) (b : List Byte) (e : Nat) : List Rng :=
  let n := num b 48 4
  let k := num b 52 4
  let word := num b 60 2
  let g := if bits word 9 2 = 3 then 128 else 32 * 2 ^ bits word 9 2
  let stepped := fun o => if 128 < b.length then e * num b o 8 else 0
  [⟨false, asid, num b 32 8 + stepped 160, n * num b 56 4, false⟩] ++
  (if bits word 4 2 = 0 then [] else [⟨false, asid, num b 40 8 + stepped 168,
    if bitB word 8 then ceilDiv n g * alignUp k 64 else n * alignUp (ceilDiv k g) 64, false⟩]) ++
  (if num b 96 8 = 0 then [] else
    [⟨false, asid, num b 96 8 + stepped 176, n * alignUp (ceilDiv (k / 4) 2) 64, false⟩]) ++
  (if num b 104 8 = 0 then [] else
    [⟨false, asid, num b 104 8 + stepped 184, ceilDiv (ceilDiv n 128 * ceilDiv k 64) 8, false⟩])

/-- A sign mask (R64), if one is named. -/
def maskRng (asid : Nat) (b : List Byte) : List Rng :=
  if num b 64 8 = 0 ∨ num b 72 1 = 0 then [] else [⟨false, asid, num b 64 8, 2 ^ num b 72 1 / 8, false⟩]

/-- The regions and the global space a VECTOR_RUN's image declares on its cores (R155, R234). -/
def State.vectorRngs (s : State) (c : Cmd) (cores : List Nat) : List Rng :=
  let img := ((s.part c.part).progs.get (fun _ => {}) (c.f 48 0 8)).image
  let regs := num img 8 1
  let areas := ((List.range 4).filter (bitB regs)).map (fun i => (0x900000 + i * 0x40000, 0x40000)) ++
    (if bitB regs 4 then [(0x800000, 0x100000)] else []) ++ (if bitB regs 5 then [(0x400000, 0x400000)] else [])
  cores.flatMap (fun k => areas.map (fun r => ⟨true, k, r.1, r.2, true⟩)) ++
    (if bitB regs 6 then [wholeAsid c.asid true] else [])

/-- The cores a command with block `b` uses and its ranges (R233, R234). -/
def State.usesOf (s : State) (c : Cmd) (b : List Byte) : List Nat × List Rng :=
  let a := s.accOf c 31 true
  let dma : List Nat × List Rng := ([s.engineCore c.part (num b 74 1 % 32) (num b 0 8) (num b 32 8)],
    s.tensorRngs a b 0 false ++ s.tensorRngs a b 32 true ++ maskRng c.asid b)
  let sweep : List Nat × List Rng := (s.coreMask c.part (c.f 48 0 32), [if c.f 40 0 64 = 0 then wholeAsid c.asid true
    else ⟨false, c.asid, c.f 32 0 64, c.f 40 0 64, true⟩])
  let attention : List Nat × List Rng := (s.coresOf c.part, s.slotAreas c.part false ++
    [⟨false, c.asid, num b 0 8, 16 * num b 8 4, false⟩, ⟨false, c.asid, num b 80 8, num b 88 8, true⟩] ++
    s.tensorRngs a b 16 false ++ s.tensorRngs a b 48 true)
  match c.op with
  | 0x10 =>
    ([s.engineCore c.part (c.f 56 0 5) (c.f 32 0 64) (c.f 40 0 64)],
      [addrRng c.asid (c.f 32 0 64) (c.f 48 0 64) false, addrRng c.asid (c.f 40 0 64) (c.f 48 0 64) true])
  | 0x12 =>
    ([s.engineCore c.part (c.f 56 0 5) (c.f 32 0 64) (c.f 32 0 64)], [addrRng c.asid (c.f 32 0 64) (c.f 40 0 64) true])
  | 0x11 => dma
  | 0x23 => dma
  | 0x30 => dma
  | 0x13 => sweep
  | 0x14 => sweep
  | 0x20 => (s.coresOf c.part, s.tensorRngs a b 0 false ++ s.tensorRngs a b 64 true ++ weightRngs c.asid b 0)
  | 0x21 => (s.coresOf c.part, s.tensorRngs a b 0 false ++ s.tensorRngs a b 64 true ++
      (List.range (num b 144 4)).flatMap (weightRngs c.asid b) ++
      [⟨false, c.asid, num b 128 8, 4 * (num b 144 4 + 1), false⟩, ⟨false, c.asid, num b 136 8, 8 * num b 148 4, false⟩])
  | 0x22 => let cores := s.coreMask c.part (c.f 44 0 32); (cores, s.vectorRngs c cores)
  | 0x24 =>
    let tk := num b 16 4 * num b 72 1
    (s.coreMask c.part (c.f 44 0 32), s.tensorRngs a b 0 false ++
      (if num b 32 8 = 0 then [] else [⟨false, c.asid, num b 32 8, 4 * num b 20 4, false⟩]) ++
      [⟨false, c.asid, num b 40 8, 4 * num b 20 4, true⟩, ⟨false, c.asid, num b 48 8, 4 * (num b 20 4 + 1), true⟩,
       ⟨false, c.asid, num b 56 8, 8 * tk, true⟩, ⟨false, c.asid, num b 64 8, 8 * tk, true⟩])
  | 0x25 => attention
  | 0x26 => attention
  | 0x27 => (s.coresOf c.part, s.slotAreas c.part true ++ [⟨false, c.asid, num b 0 8, 16 * num b 8 4, false⟩] ++
      s.tensorRngs a b 16 false ++ s.tensorRngs a b 48 false)
  | 0x87 =>
    let n := num b 16 8
    ((s.coresOf c.part).filter s.dmaServes,
      [⟨false, c.asid, num b 0 8, if num b 44 1 % 16 = 15 then n else 65600 * ceilDiv n 65536, false⟩,
       ⟨false, c.asid, num b 8 8, n, true⟩])
  | _ => ([], [])

/-- A command's parameter block as far as it is known: read already, or readable where it lies (R299). -/
def State.blockNow (s : State) (c : Cmd) : Option (List Byte) :=
  match c.block, c.blockSize with
  | some b, _ => some b
  | none, none => some []
  | none, some n =>
    let a := s.accOf c 31 true
    let dva := c.f 32 0 64
    if c.op = 0x22 then some []
    else if dva % 64 ≠ 0 ∨ c.f 40 0 32 ≠ n ∨ !dvaOk dva ∨ !(c.missing (s.hostRanges a dva n)).isEmpty then none
    else (s.readDva a dva n).toOption

/-- The cores a command uses and its ranges. A command whose block cannot be known yet has entered no range (log entry 61). -/
def State.uses (s : State) (c : Cmd) : List Nat × List Rng :=
  match s.blockNow c with
  | some b => s.usesOf c b
  | none => ([], [])

/-- The partition physical address of a device physical address: R206 turned round. -/
def State.ppaOf (s : State) (p dpa : Nat) : Option Nat :=
  let st := s.stacksOf p
  let i := st.findIdx (· == dpa / stackBase 1)
  let m := st.length
  let o := dpa % stackBase 1
  let r := o / 512
  if i < m ∧ o < usable then some ((r * m + (i + m - r / 1024 % m) % m) * 512 + o % 512) else none

/-- Whether a command that reads a range reads some byte of an HBM word, and of an SRAM word. -/
def State.readsHbm (s : State) (p w : Nat) (r : Rng) : Bool :=
  !r.sram && !r.write && (match s.ppaOf p (16 * w) with
    | none => false
    | some ppa => (s.part p).maps.any (fun m => m.asid == r.space && !m.host && m.target ≤ ppa &&
        ppa < m.target + m.pages * m.page && overlap (m.dva + (ppa - m.target)) 16 r.lo r.len))
def Rng.readsSram (r : Rng) (w : Nat) : Bool :=
  r.sram && !r.write && r.space == 16 * w / 2 ^ 24 && overlap (16 * w % 2 ^ 24) 16 r.lo r.len

/-- The single-bit errors in what a command reads, corrected, rewritten, counted and recorded as it starts (R213; log entry 62). -/
def State.fixReads (s : State) (c : Cmd) : State :=
  if s.mem.hbmOne.isEmpty && s.mem.sramOne.isEmpty then s
  else
    let rs := (s.uses c).2
    let hs := s.mem.hbmOne.filter (fun e => e.2 && rs.any (s.readsHbm c.part e.1))
    let ss := s.mem.sramOne.filter (fun e => e.2 && rs.any (fun r => r.readsSram e.1))
    ss.foldl (fun s e => s.fixSram e.1) (hs.foldl (fun s e => s.fixHbm e.1) s)

/-- The commands that work core by core, and so start on each core by itself (R233). -/
def spreads (op : Nat) : Bool := op == 0x20 || op == 0x21 || op == 0x22 || op == 0x26

/-- The fabric commands, among which R94 orders tiles and not commands (R233). -/
def isFabric (op : Nat) : Bool := op == 0x20 || op == 0x21

/-- Whether a command in flight still has accesses to make on a core: a vector run that has ended there has none (R233). -/
def State.onCore (s : State) (d : Cmd) (k : Nat) : Bool :=
  d.phase != .written && d.phase != .watched &&
    !(d.op == 0x22 && d.traced.contains k && !((s.core k).run.any (fun r => r.cmd == d.id)))

/-- Whether a command must wait on a core for an earlier one in flight there whose ranges clash with its own (R233): one dispatched
before it, or one that has begun work there. -/
def State.coreHeld (s : State) (c : Cmd) (k : Nat) : Bool :=
  let u := s.uses c
  s.fe.cmds.any (fun d => d.id != c.id && d.part == c.part && (decide (d.id < c.id) || d.traced.contains k) &&
    !(isFabric c.op && isFabric d.op) && s.onCore d k &&
    (let v := s.uses d
     u.1.contains k && v.1.contains k && u.2.any (fun r => v.2.any (fun q => r.clash q))))

/-- Whether a command must wait on any core it uses. -/
def State.ranged (s : State) (c : Cmd) : Bool := (s.uses c).1.any (s.coreHeld c)

/-- The range table of a core's sequencer (R233): an entry for every command in flight that uses the core. -/
def State.rangeTable (s : State) (k : Nat) : List Cmd :=
  s.fe.cmds.filter (fun d => d.phase != .written && d.phase != .watched && (s.uses d).1.contains k)

/-- Whether a core's range table is full (R235). One command takes one of its 64 entries, with all its ranges (log entry 61). -/
def State.tableFull (s : State) (k : Nat) : Bool := 64 ≤ (s.rangeTable k).length

end Sys2Proof.Machine
end

