-- ==== Sys2Proof/Machine/Commands.lean ====
section
/-!
DEFINITION. From a fetched packet to a started command: the front end's checks (R285), authority (R307, R308), fences at dispatch
(R286 to R292), the parameter block (R299), the start (R295), and the commands that act in the front
end alone (R290, R306, R445).
-/
namespace Sys2Proof.Machine

/-! ## The checks of R285 -/

/-- The opcodes of R306. -/
def opcodes : List Nat :=
  [0x00, 0x01, 0x02, 0x03, 0x04, 0x05, 0x10, 0x11, 0x12, 0x13, 0x14, 0x20, 0x21, 0x22, 0x23, 0x24, 0x25, 0x26, 0x27,
   0x30, 0x31, 0x38, 0x39, 0x3A, 0x3B, 0x3C, 0x3D, 0x40, 0x41, 0x42, 0x80, 0x81, 0x82, 0x83, 0x84, 0x85, 0x86, 0x87,
   0x88, 0x89, 0x8A, 0x8B, 0x8C, 0x8D, 0x8E, 0x8F]

/-- The opcodes with a PARTITION byte (R306, R322, R410, R412). -/
def partOps : List Nat := [0x82, 0x83, 0x87, 0x88, 0x89, 0x8A, 0x8B, 0x8D, 0x8E, 0x8F]

/-- Whether a queue class may issue an opcode (R308); `oper` is byte 49 of PARTITION_CONFIG. -/
def classMay (cls op oper : Nat) : Bool :=
  match cls with
  | 0 => true
  | 1 => op ≤ 0x42 || [0x80, 0x81, 0x84, 0x85, 0x86, 0x87, 0x88, 0x89, 0x8A, 0x8B, 0x8F].contains op ||
      (op == 0x82 && oper != 0)
  | _ => op ≤ 0x42

/-- Fields as a mask: `(byte, lo, width)` of the packet. -/
def fieldMask (fs : List (Nat × Nat × Nat)) : Nat :=
  fs.foldl (fun m f => m ||| ((2 ^ f.2.2 - 1) * 2 ^ (8 * f.1 + f.2.1))) 0

/-- The block's address and size (R299). -/
def blockFields : List (Nat × Nat × Nat) := [(32, 0, 64), (40, 0, 32)]

/-- The inline fields of bytes 32 to 63 that R301 and R306 name for an opcode; every other bit is reserved (R285). -/
def inlineFields (op : Nat) (pkt : Nat) : List (Nat × Nat × Nat) :=
  match op with
  | 0x03 => [(32, 0, 64), (40, 0, 1), (41, 0, 5)]
  | 0x04 => [(32, 0, 64), (40, 0, 64), (48, 0, 32)]
  | 0x3B => [(32, 0, 64), (40, 0, 64), (48, 0, 32)]
  | 0x10 => [(32, 0, 64), (40, 0, 64), (48, 0, 64), (56, 0, 5)]
  | 0x12 => [(32, 0, 64), (40, 0, 64), (48, 0, 64), (56, 0, 5)]
  | 0x13 => [(32, 0, 64), (40, 0, 64), (48, 0, 32)]
  | 0x14 => [(32, 0, 64), (40, 0, 64), (48, 0, 32), (52, 0, 1)]
  | 0x22 => [(32, 0, 64), (40, 0, 32), (44, 0, 32), (48, 0, 8), (52, 0, 32)]
  | 0x24 => blockFields ++ [(44, 0, 32)]
  | 0x31 => [(32, 0, 64), (40, 0, 6)]
  | 0x38 => [(32, 0, 18), (36, 0, 4), (40, 0, 32), (48, 0, 64)]
  | 0x39 => [(32, 0, 18), (36, 0, 18), (40, 0, 32), (48, 0, 64)]
  | 0x3A => [(32, 0, 18)]
  | 0x3D => [(32, 0, 18)]
  | 0x3C => [(32, 0, 18), (36, 0, 32), (40, 0, 64)]
  | 0x80 => (if bits pkt (8 * 48 + 1) 1 = 1 then [] else blockFields) ++ [(44, 0, 32), (48, 0, 2)]
  | 0x81 => [(44, 0, 32), (48, 0, 1)]
  | 0x82 => (if bits pkt (8 * 49) 8 = 2 then [] else blockFields) ++ [(48, 0, 3), (49, 0, 8), (50, 0, 4)]
  | 0x83 => [(48, 0, 3)]
  | 0x84 => [(32, 0, 64), (40, 0, 64), (48, 0, 32), (52, 0, 8), (53, 0, 6)]
  | 0x85 => [(32, 0, 64), (48, 0, 32), (52, 0, 8), (53, 0, 1)]
  | 0x86 => [(32, 0, 64), (40, 0, 32)]
  | 0x87 => blockFields ++ [(48, 0, 3)]
  | 0x88 => blockFields ++ [(48, 0, 3)]
  | 0x89 => blockFields ++ [(48, 0, 3)]
  | 0x8A => blockFields ++ [(48, 0, 3)]
  | 0x8B => blockFields ++ [(48, 0, 3)]
  | 0x8C => [(32, 0, 64), (40, 0, 3)]
  | 0x8D => [(48, 0, 3), (49, 0, 1), (50, 0, 2), (51, 0, 5)]
  | 0x8E => [(48, 0, 3), (49, 0, 1), (50, 0, 2), (51, 0, 5)]
  | 0x8F => [(48, 0, 3)]
  | 0x00 => []
  | 0x01 => []
  | 0x02 => []
  | 0x05 => []
  | _ => blockFields

/-- The header fields of R283 and R284 that are not reserved. -/
def headerFields : List (Nat × Nat × Nat) :=
  [(0, 0, 12), (2, 0, 3), (2, 7, 1), (4, 0, 32), (8, 0, 28), (12, 0, 28), (16, 0, 128)]

/-- Whether every reserved bit of a packet is 0 (check 4 of R285). -/
def reservedOk (pkt : Nat) : Bool :=
  pkt &&& ((2 ^ 512 - 1) ^^^ fieldMask (headerFields ++ inlineFields (pkt % 256) pkt)) == 0

/-- Whether a packet's modes are valid (check 5; R287, R288). -/
def modesOk (pkt : Nat) : Bool :=
  let cond := bits pkt (8 * 8 + 24) 3
  let inv := bits pkt (8 * 8 + 27) 1
  cond ≤ 3 && bits pkt (8 * 12 + 24) 4 ≤ 3 && (inv == 0 || (cond != 0 && (pkt % 256 == 0x22 || pkt % 256 == 0x14)))

/-- Whether a packet's fence IDs lie in its partition's fence space (check 6; R286). -/
def State.fencesOk (s : State) (p pkt : Nat) : Bool :=
  (bits pkt (8 * 8 + 24) 3 == 0 || (s.fenceKey p (bits pkt 64 24)).isSome) &&
    (bits pkt (8 * 12 + 24) 4 == 0 || (s.fenceKey p (bits pkt 96 24)).isSome)

/-- The first check of R285 that a packet of a queue fails. -/
def State.packetCheck (s : State) (x : SqCtx) (pkt : Nat) : Option Nat :=
  let op := pkt % 256
  if bits pkt 8 4 ≠ 1 then some 0x0102
  else if !opcodes.contains op then some 0x0101
  else if !classMay x.cls op (bits pkt (8 * 49) 8) then some 0x0201
  else if op = 0x03 ∧ bits pkt (8 * 40) 1 = 1 ∧ x.cls = 2 ∧ !x.counters then some 0x0202
  else if x.cls = 1 ∧ partOps.contains op ∧ bits pkt (8 * 48) 3 ≠ x.part then some 0x0203
  else if !reservedOk pkt then some 0x0103
  else if !modesOk pkt then some 0x0403
  else if !s.fencesOk x.part pkt then some 0x0402
  else if x.epoch ≠ s.epoch x.part then some 0x0903
  else none

/-! ## Rejection and dispatch -/

/-- A packet that fails a check: its entry, the halt, and the slots behind it discarded to be fetched again (R285), with those that a
ring read still brings; its trace records and what it triggers (R448, R450). -/
def State.reject (s : State) (f : Fetched) (st : Nat) : State :=
  let x := s.sq f.queue
  let behind := (s.fe.fetched.filter (fun g => g.queue == f.queue && g != f)).length
  let s := { s with fe := { s.fe with fetched := s.fe.fetched.filter (fun g => g.queue != f.queue) } }
  let s := s.updSq f.queue fun x => { x with
    head := (f.slot + 1) % 2 ^ x.size, seq := f.seq + 1, inFlight := x.inFlight - (behind + 1), halted := true,
    haltStatus := st }
  let s := { s with fe := { s.fe with
    ringReads := s.fe.ringReads.map (fun (r : RingRead) => if r.queue = f.queue then { r with void := true } else r) } }
  let s := s.setPending f.queue (decide ((s.sq f.queue).behind (s.tail f.queue) ≠ 0))
  let s := s.updCq x.cq fun q => { q with reserved := q.reserved - 1 }
  let s := (s.putEntry x.cq (entryBytes (bits f.pkt 32 32) st 0 2 f.queue f.seq.toNat s.now 0 0 0)).giveBack x.cq behind
  let c : Cmd := { id := s.fe.nextCmd, queue := f.queue, seq := f.seq, pkt := f.pkt, part := x.part, start := s.now,
                   step := s.reg64 (Reg.stepLo x.part) (Reg.stepHi x.part) }
  ((s.traceCmd 1 0 31 c 0 0).traceCmd 2 0 31 c st 0).traceTrigger c st

/-- Whether a PF command in a partition that is not configured completes with PARTITION_ABSENT (R307). -/
def absentApplies (op : Nat) (pkt : Nat) : Bool :=
  if op = 0x00 ∨ op = 0x80 ∨ op = 0x81 ∨ op = 0x8C then false
  else if op = 0x01 ∨ op = 0x02 then !(bits pkt (8 * 8 + 24) 3 == 0 && bits pkt (8 * 12 + 24) 4 == 0)
  else !(op == 0x82 && bits pkt (8 * 49) 8 == 0)

/-- The commands that require an open step (R306). -/
def stepOps : List Nat := [0x25, 0x26, 0x27, 0x3B]
/-- Whether a STEP_BEGIN of the partition has been dispatched and not completed. -/
def State.stepBeginning (s : State) (p : Nat) : Bool := s.fe.cmds.any (fun c => c.part == p && c.op == 0x04)

/-- Whether a step command dispatched now finds no step: the step is closing, or none is open and no STEP_BEGIN is on its way
(R312, R313). -/
def State.stepShut (s : State) (p : Nat) : Bool :=
  (s.part p).closing || (s.fld (Reg.part p) 3 1 == 0 && !s.stepBeginning p)

/-- The command a fetched packet becomes. -/
def State.cmdOf (s : State) (f : Fetched) : Cmd :=
  let x := s.sq f.queue
  let part := if partOps.contains (f.pkt % 256) then bits f.pkt (8 * 48) 3 else x.part
  { id := s.fe.nextCmd, queue := f.queue, seq := f.seq, pkt := f.pkt, fn := x.fn, cls := x.cls, qpart := x.part, part,
    asid := x.asid, cq := x.cq, epoch := s.epoch part, timeoutM1 := x.timeoutM1, infinite := x.infinite && x.cls == 0,
    step := s.reg64 (Reg.stepLo part) (Reg.stepHi part), dispAt := s.now, start := s.now,
    deadline := s.now + 1000 * (x.timeoutM1 + 1) }

/-- A dispatched command evaluated against its fence (R287, R291): a condition that holds is met at once; a poisoned word ends
the command (R343). -/
def State.firstWait (s : State) (c : Cmd) : State :=
  if c.waitCond = 0 then s.updCmd c.id fun c => { c with met := some s.now }
  else match s.fenceKey c.qpart c.waitFence with
    | none => s
    | some k =>
      match s.fenceFault k with
      | some st => (s.logFence k c).retire c st 0 false
      | none => if condHolds c.waitCond (s.fence k) c.waitValue then s.updCmd c.id fun c => { c with met := some s.now }
      else s.updCmd c.id fun c => { c with waited := true }

/-- A QUEUE_DESTROY of a submission queue stops fetching from it at its own dispatch (R267), if R511 lets it act. -/
def State.stopFetching (s : State) (c : Cmd) : State :=
  let q := c.f 44 0 32
  if c.op = 0x81 ∧ c.f 48 0 1 = 0 ∧ q < 2 ^ 20 ∧ (s.sq q).enabled ∧
      (c.cls = 0 ∨ s.sqOwner q = c.fn) then
    s.updSq q fun x => { x with stopFetch := true }
  else s

/-- A packet that passed R285 enters flight (R236, R291, R313, R323). -/
def State.dispatch (s : State) (f : Fetched) : State :=
  let c := s.cmdOf f
  let s := { s with fe := { s.fe with fetched := s.fe.fetched.filter (fun g => g != f), cmds := s.fe.cmds ++ [c],
                                      nextCmd := s.fe.nextCmd + 1 } }
  let s := s.freeBarriers c.queue
  let absent := if c.op = 0x83 then s.pstate c.part == 0 else !s.configured c.part
  if c.cls = 0 ∧ absent ∧ absentApplies c.op c.pkt then s.retire c 0x0913 0 true
  else if stepOps.contains c.op ∧ s.stepShut c.part then s.retire c 0x050E 0 true
  else
    let s := if c.op = 0x8D ∨ c.op = 0x8E then
        s.updPart c.part fun x => if x.hold.isNone then { x with hold := some c.id } else x
      else s
    (s.stopFetching c).firstWait c

/-- Whether a command of the queue waits on a fence: it holds back every later packet (R236). -/
def State.queueWaits (s : State) (queue : Nat) : Bool :=
  s.fe.cmds.any (fun d => d.queue == queue && d.phase == .dispatched && d.met.isNone)

/-- PARTITION_RELEASE and RESET_COMPUTE: they act at any time, also while a context switch holds the partition (R314). -/
def actsAnyTime (op : Nat) : Bool := op == 0x83 || op == 0x8F

/-- Whether a queue's next packet may be dispatched: no earlier command of the queue waits on a fence (R236), its partition
is neither held for a context switch (R323) nor in a compute reset (R348), and every core it uses has room in its range table
(R235). -/
def State.mayDispatch (s : State) (f : Fetched) : Bool :=
  let c := s.cmdOf f
  !s.queueWaits f.queue && ((s.part c.part).hold.isNone || actsAnyTime c.op) && (!(s.part c.part).resetDue || c.op == 0x83) &&
    (s.uses c).1.all (fun k => !s.tableFull k)

/-- COMMAND_DISPATCH (R285). -/
def execCommandDispatch (queue : Nat) (s : State) : Answer :=
  if 2 ^ 20 ≤ queue then .next s
  else match s.fe.fetched.find? (fun f => f.queue == queue) with
    | none => .next s
    | some f =>
      match s.packetCheck (s.sq queue) f.pkt with
      | some st => when (s.active && s.eclosed && !s.queueWaits queue) s (s.reject f st)
      | none => when (s.active && s.eclosed && s.mayDispatch f) s (s.dispatch f)

/-! ## Start -/

/-- START (R295): the latest of the dispatch, the moment the wait held and the moment the barrier was satisfied. -/
def Cmd.startTime (c : Cmd) : Nat := max c.dispAt (max (c.met.getD 0) (if c.barrier then c.barAt.getD 0 else 0))

/-- A command started: its begin record, the cores it uses, and the timer, from its START, of the waits that run under its queue's
timeout (R291, R450). -/
def State.started (s : State) (c : Cmd) : State :=
  let s := s.updCmd c.id fun c => { c with
    phase := .started, start := c.startTime, begun := s.now, deadline := c.startTime + 1000 * (c.timeoutM1 + 1),
    cores := (s.uses c).1 }
  (s.fixReads c).traceCmd 1 0 31 { c with start := c.startTime } 0 0

/-- The parameter block of a command (R299): misplaced or missized is 0x0104; a read that fails ends the command. -/
def State.loadBlock (s : State) (c : Cmd) (n : Nat) : State :=
  let a := s.accOf c 31 true
  let dva := c.f 32 0 64
  if dva % 64 ≠ 0 ∨ c.f 40 0 32 ≠ n ∨ n = 0 ∨ !dvaOk dva then
    ({ s with } : State).retire { c with start := c.startTime } 0x0104 0 true
  else if c.hostErr then s.retire { c with start := c.startTime } 0x0310 0 true
  else if !(c.missing (s.hostRanges a dva n)).isEmpty then
    s.sendReads c a (c.missing (s.hostRanges a dva n))
  else match s.readDva a dva n with
    | .error e => (s.noteErr e c.queue c.seq.toNat).retire { c with start := c.startTime } e.status 0 true
    | .ok b => s.updCmd c.id fun c => { c with block := some b }

/-- Whether a STEP_BEGIN or STEP_END must let another of its partition, which has started, act first (R311). -/
def State.stepStarting (s : State) (c : Cmd) : Bool :=
  (c.op == 0x04 || c.op == 0x05) &&
    s.fe.cmds.any (fun d => d.id != c.id && d.part == c.part && (d.op == 0x04 || d.op == 0x05) && d.phase == .started)

/-- Whether a dispatched command's wait, barrier and step allow it to start (R284, R295, R312). -/
def State.mayStart (s : State) (c : Cmd) : Bool :=
  c.phase == .dispatched && c.met.isSome && (!c.barrier || c.barAt.isSome) && !s.reading c.id &&
    !(stepOps.contains c.op && s.fld (Reg.part c.part) 3 1 == 0 && s.stepBeginning c.part) &&
      !s.stepStarting c && c.epoch == s.epoch c.part && !(s.part c.part).resetDue

/-- A command that may start does so (R295) once its block is read whole and the range rules hold (R233). One that works core by core
starts on each core once the rules hold there. A step command whose step never opened ends (R313). -/
def State.startCmd (s : State) (c : Cmd) : State :=
  if stepOps.contains c.op ∧ s.fld (Reg.part c.part) 3 1 = 0 then s.retire { c with start := c.startTime } 0x050E 0 true
  else
    let s1 := match c.blockSize, c.block with
      | some n, none => s.loadBlock c n
      | _, _ => s
    match s1.cmd? c.id with
    | none => s1
    | some c1 => if (c1.blockSize.isSome && c1.block.isNone) || (!spreads c1.op && s1.ranged c1) then s1 else s1.started c1

/-! ## Commands of the front end -/

/-- NOP (R306): OK after its wait. -/
def execNop (cmd : Nat) (s : State) : Answer := .next (runCmd s cmd [0x00] fun s _ => .done s 0 0 none)

/-- FENCE_WAIT (R290): nothing after its wait. -/
def execFenceWait (cmd : Nat) (s : State) : Answer := .next (runCmd s cmd [0x01] fun s _ => .done s 0 0 none)

/-- FENCE_SIGNAL (R290): it acts as with BARRIER, and its end signals. -/
def execFenceSignal (cmd : Nat) (s : State) : Answer := .next (runCmd s cmd [0x02] fun s _ => .done s 0 0 none)

/-- One counter as TIMESTAMP stores it (R445). -/
def State.ctrWord (s : State) (core k : Nat) : Nat := s.ctr core k + s.fld (Reg.ctrHi core k) 31 1 * 2 ^ 63

/-- TIMESTAMP (R306, R445): START at DST, and with COUNTERS the sixteen counters of CORE behind it. -/
def execTimestamp (cmd : Nat) (s : State) : Answer :=
  .next (runCmd s cmd [0x03] fun s c =>
    let dst := c.f 32 0 64
    let core := c.f 41 0 5
    if dst % 8 ≠ 0 ∨ !dvaOk dst then .done s 0x0104 0 none
    else if c.f 40 0 1 = 1 ∧ !(s.coresOf c.part).contains core then .done s 0x0911 0 none
    else
      let bs := leBytes 8 c.start ++ (if c.f 40 0 1 = 1 then
        (List.range 16).flatMap (fun k => leBytes 8 (s.ctrWord core k)) else [])
      match s.writeDva (s.accOf c 31 true) dst bs with
      | (s', some e) => .fail s' e
      | (s', none) => .done s' 0 0 none)

end Sys2Proof.Machine
end

