-- ==== Sys2Proof/Machine/Slots.lean ====
section
/-!
DEFINITION. The decode slots of a core and who waits for them (R116 to R119): the lanes of the expanders and of the path decoder,
the references that producers and waiting blocks hold, and the fill of a slot.
-/
namespace Sys2Proof.Machine

/-! ## Slots -/

/-- Whether slot `i` of a core holds a table, and whether it holds table `id` (R138). -/
def State.slotFull (s : State) (core i : Nat) : Bool := s.fld (Reg.slots core) (8 * i + 7) 1 == 1
def State.slotHas (s : State) (core id i : Nat) : Bool := s.slotFull core i && s.fld (Reg.slots core) (8 * i) 6 == id

/-- The slot of a core that holds a table. -/
def State.inSlot (s : State) (core id : Nat) : Option Nat := (List.range 4).find? (s.slotHas core id)

/-- A slot used: it becomes the most recently used one (R118). -/
def State.useSlot (s : State) (core i : Nat) : State :=
  s.updCore core fun k => { k with slotUse := i :: k.slotUse.filter (· != i) }

/-- Every slot copy of a table ID invalidated (R120, R138). -/
def State.dropSlots (s : State) (id : Nat) : State :=
  (List.range 24).foldl (fun s k => (List.range 4).foldl (fun s i =>
    if s.slotHas k id i then s.setFld (Reg.slots k) (8 * i) 8 0 else s) s) s

/-! ## References -/

/-- Where a producing command's block names its destination (R302, R303). -/
def destAt (op : Nat) : Option Nat :=
  if op = 0x11 ∨ op = 0x23 ∨ op = 0x30 then some 32 else if op = 0x20 ∨ op = 0x21 then some 64 else none

/-- The table that a started producing command names in its compressed destination (R119). -/
def State.producing (s : State) (c : Cmd) : Option Nat :=
  if c.phase = .started ∨ c.phase = .running then
    match destAt c.op with
    | none => none
    | some o =>
      match s.parseTensor c.part (c.block.getD []) o (c.op == 0x11) with
      | .ok t => match s.openTensor (s.accOf c 31 true) t with
        | .ok (some ct) => ct.table
        | _ => none
      | .error _ => none
  else none

/-- The cores in which a producer's compressor works: the one of its DMA engine, or those that hold its tiles. -/
def State.producerCores (s : State) (c : Cmd) : List Nat :=
  let b := c.block.getD []
  if c.op = 0x20 ∨ c.op = 0x21 then (s.coresOf c.part).filter (fun k => (s.core k).tiles.any (fun t => t.cmd == c.id))
  else [s.engineCore c.part (num b 74 1 % 32) (num b 0 8) (num b 32 8)]

/-- The table of the block that a lane waits with: the first one it has still to decode. Its header has been fetched; the blocks
behind it wait with it and hold no reference yet (R118, R119; DESIGN CHOICE, log entry 54). -/
def CoreSt.waits (k : CoreSt) : List Nat := k.lanes.filterMap (fun l => l.2.head?)

/-- The references on a table ID (R119): those of producing commands and those of blocks that wait for a slot. -/
def State.tableRefs (s : State) (id : Nat) : Nat :=
  (s.fe.cmds.filter (fun c => s.producing c == some id)).length +
    (List.range 24).foldl (fun n k => n + ((s.core k).waits.filter (· == id)).length) 0

/-- Whether a slot of a core has a non-zero reference count (R119, R138). -/
def State.slotBusy (s : State) (core i : Nat) : Bool :=
  let id := s.fld (Reg.slots core) (8 * i) 6
  s.slotFull core i && ((s.core core).waits.contains id ||
    s.fe.cmds.any (fun c => s.producing c == some id && (s.producerCores c).contains core))

/-! ## Lanes -/

/-- One lane decoding: the blocks whose tables the slots hold leave it; it stops at the first that no slot serves. -/
def State.drainLane (s : State) (core : Nat) : List Nat → State × List Nat
  | [] => (s, [])
  | id :: ids =>
    match s.inSlot core id with
    | some i => (s.useSlot core i).drainLane core ids
    | none => (s, id :: ids)

/-- A lane of a core given the coded blocks it has to decode, by their tables; a block it then waits with is a miss (R118,
R137). -/
def State.runLane (s : State) (core lane : Nat) (ids : List Nat) : State :=
  let r := s.drainLane core ids
  let s := r.1.updCore core fun k => { k with lanes := k.lanes.set (fun _ => []) lane r.2 }
  if r.2.isEmpty then s else s.count core 0x24 1

/-- The lanes of a core go on after a fill, in ascending order; one that then stops at a later block misses again. -/
def State.runLanes (s : State) (core : Nat) : State :=
  (s.core core).lanes.foldl (fun s l => if (s.drainLane core l.2).2 = l.2 then s else s.runLane core l.1 l.2) s

/-- The lane of the path decoder for a command. -/
def pathLane (cmd : Nat) : Nat := 8 + cmd

/-- The table of a directory entry's coded block, where that table is one that decoding uses: owned and loaded. A block that fails
before its table serves waits for none (R113, R116). -/
def State.entryTable (s : State) (a : Acc) (c : CTensor) (i : Nat) : Option Nat :=
  match s.readDva a (c.dir + 4 * i) 4 with
  | .error _ => none
  | .ok ent =>
    let e := leNat ent
    if bits e 29 2 ≠ 2 ∨ bitB e 31 then none
    else match s.readDva a ((if bitB e 28 then c.heap1 else c.heap0) + 16 * bits e 0 28) 1 with
      | .error _ => none
      | .ok h =>
        let id := leNat h % 64
        if s.ownsTable a.part id && (s.dtab id).valid then some id else none

/-- The slot that a table takes: a free one, or else the least recently used without a reference (R118). -/
def State.slotFor (s : State) (core : Nat) : Option Nat :=
  match (List.range 4).find? (fun i => !s.slotFull core i) with
  | some i => some i
  | none => (s.core core).slotUse.reverse.find? (fun i => !s.slotBusy core i)

/-- DECODE_SLOT_FILL (R118): a table that a waiting block of the core names arrives in a slot, and the waiting blocks proceed. -/
def execDecodeSlotFill (core table : Nat) (s : State) : Answer :=
  if 24 ≤ core ∨ 64 ≤ table then .next s else
  match s.slotFor core with
  | none => .next s
  | some i =>
    when (s.active && (s.core core).waits.contains table) s
      (((s.setFld (Reg.slots core) (8 * i) 8 (table + 128)).useSlot core i).runLanes core)

end Sys2Proof.Machine
end

