-- ==== Sys2Proof/Machine/Dma.lean ====
section
/-!
DEFINITION. The commands of the DMA engines (R301, R303, R315): DMA_COPY, MEM_FILL, DMA_CONVERT, COMPRESS, and ROTATE on the
vector engine's rotation unit (R158); their checks and faults (R335, R337), and the flags of conversions (R45 to R47).
-/
namespace Sys2Proof.Machine

/-! ## Scale planes -/

/-- SCALE_SPECIAL for a source tensor of which a block carries a NaN scale (R45, R51). -/
def State.scaleFlag (s : State) (a : Acc) (t : Tensor) : Nat :=
  if t.sf = 0 then 0
  else match s.readDva a t.scale t.scaleBytes with
    | .ok b => if b.any (fun x => scaleVal t.sf x.toNat == .nan) then scaleSpecial else 0
    | .error _ => 0

/-! ## Engine selection and checks -/

/-- The core whose DMA engine runs a command, or the status that ends it: a core outside the partition (R298), or an engine
out of service (R337). -/
def State.dmaCore (s : State) (c : Cmd) (field src dst : Nat) : Except Nat Nat :=
  let k := s.engineCore c.part field src dst
  if !(s.coresOf c.part).contains k then .error 0x0911
  else if !s.dmaServes k then .error 0x0801
  else .ok k

/-- A DMA engine's check that failed once and passed on the repeat: counted in REPLAYS, and a record of severity 1 (R335). -/
def State.dmaReplay (s : State) (c : Cmd) (core : Nat) : State :=
  (s.updCmd c.id fun c => { c with replays := c.replays + 1 }).logCore core
    { kind := 0x1C, severity := 1, queue := c.queue, submit := c.seq.toNat }

/-- A DMA engine's second failure: FAULTY, and a record of severity 3 (R335). -/
def State.dmaBroken (s : State) (c : Cmd) (core : Nat) : State :=
  (s.setFld (Reg.dmaFault core) 0 1 1).logCore core
    { kind := 0x1D, severity := 3, queue := c.queue, submit := c.seq.toNat, status := 0x0801 }

/-- The opcodes that run on a core's vector engine (R159, R315). -/
def vecOps : List Nat := [0x22, 0x23, 0x24]

/-- A vector engine's second failure: FAULTY, and a record of severity 2 (R154, R335). -/
def State.vecBroken (s : State) (c : Cmd) (core : Nat) : State :=
  (s.setFld (Reg.vecFault core) 0 1 1).logCore core
    { kind := 0x19, severity := 2, queue := c.queue, submit := c.seq.toNat, status := 0x0820 }

/-- An instruction of a vector engine issued again (R154, R162, R163). -/
def State.vecReplay (s : State) (c : Cmd) (core : Nat) : State :=
  (((s.updCmd c.id fun c => { c with replays := c.replays + 1 }).bump (Reg.vecReplays core) 0 32 1).count core 0x36 1).logCore
    core { kind := 0x18, severity := 1, queue := c.queue, submit := c.seq.toNat }

/-- What a second failure does on the engine of `core`: of a DMA engine, or of the vector engine for VECTOR_RUN and ROTATE (R154, R158). -/
def State.unitBroken (s : State) (c : Cmd) (core : Nat) : State × Nat :=
  if vecOps.contains c.op then (s.vecBroken c core, 0x0820) else (s.dmaBroken c core, 0x0801)

/-- A replay counted on the engine of `core`. -/
def State.unitReplay (s : State) (c : Cmd) (core : Nat) : State :=
  if vecOps.contains c.op then s.vecReplay c core else s.dmaReplay c core

/-- A transfer on a datapath that failed its parity and was repeated: counted in REPLAYS, with a record that names the path
(R334, R335). -/
def State.pathReplay (s : State) (c : Cmd) (core id : Nat) : State :=
  (s.updCmd c.id fun c => { c with replays := c.replays + 1 }).logCore core
    { kind := 0x20, severity := 1, queue := c.queue, submit := c.seq.toNat, address := id }

/-- The record of a transfer whose repeat failed too (R335, R343). -/
def State.pathBroken (s : State) (c : Cmd) (core id : Nat) : State :=
  s.logCore core { kind := 0x20, severity := 3, queue := c.queue, submit := c.seq.toNat, status := 0x0801, address := id }

/-- The effect of a command's hardware checks (R335): the command goes on with `k` if the work passed at last, and otherwise
ends with what `spoil` leaves of its destination. -/
def checked (s : State) (c : Cmd) (core : Nat) (chk : Check) (spoil : State → State) (k : State → Res) : Res :=
  match chk with
  | .ok => k s
  | .transient => k (s.unitReplay c core)
  | .permanent =>
    let r := (spoil s).unitBroken c core
    .done r.1 r.2 0 none
  | .path id false => k (s.pathReplay c core id)
  | .path id true => .done ((spoil s).pathBroken c core id) 0x0801 0 none

/-- Whether the vector engines of the listed cores are free for a command: one VECTOR_RUN, ROTATE, MOE_ROUTE or softmax piece of
ATTEND_PREFILL at a time, in dispatch order (R159, R315). -/
def State.vecTurn (s : State) (c : Cmd) (cores : List Nat) : Bool :=
  cores.all (fun k => (s.core k).run.isNone) &&
    !s.fe.cmds.any (fun d => d.id < c.id && d.part == c.part && (d.phase == .started || d.phase == .running) &&
      (vecOps.contains d.op || d.op == 0x25) && d.cores.any (fun k => cores.contains k && s.onCore d k))

/-- Whether a core's DMA engine takes a command: it serves up to four at once (R315). -/
def State.dmaTurn (s : State) (c : Cmd) (core : Nat) : Bool :=
  (s.fe.cmds.filter (fun d => decide (d.id < c.id) && (d.phase == .started || d.phase == .running) && engineOf d.op == 2 &&
    d.cores.contains core)).length < 4

/-! ## DMA_COPY and MEM_FILL -/

/-- Whether an SRAM range ends within the core's SRAM (R17). -/
def Loc.fits (l : Loc) (n : Nat) : Bool :=
  match l with
  | .dva _ => true
  | .sram _ o => o + n ≤ sramBytes

/-- Whether two ranges of `n` bytes share a byte. -/
def Loc.overlaps (a b : Loc) (n : Nat) : Bool :=
  match a, b with
  | .dva x, .dva y => overlap x n y n
  | .sram c x, .sram d y => c == d && overlap x n y n
  | _, _ => false

/-- The device virtual address of a destination, for a tensor watch (R455). -/
def Loc.watched : Loc → Option Nat
  | .dva a => some a
  | .sram _ _ => none

/-- Bytes stored at a destination, as the end of a command; a failed write leaves partial results (R214, R223). -/
def storeRun (s : State) (a : Acc) (ld : Loc) (bs : List Byte) : Res :=
  match s.writeLoc a ld bs with
  | (s', some e) => .fail (s'.fillFree a ld bs.length) e
  | (s', none) => .done s' 0 0 ld.watched

/-- DMA_COPY (R301): copies BYTES; overlapping operands are rejected. -/
def dmaCopy (chk : Check) (s : State) (c : Cmd) : Res :=
  let n := c.f 48 0 64
  match s.parseLoc c.part (c.f 32 0 64) true, s.parseLoc c.part (c.f 40 0 64) true with
  | .error st, _ => .done s st 0 none
  | _, .error st => .done s st 0 none
  | .ok ls, .ok ld =>
    if n = 0 ∨ 2 ^ 40 < n ∨ !ls.fits n ∨ !ld.fits n ∨ ls.overlaps ld n then .done s 0x0104 0 none
    else match s.dmaCore c (c.f 56 0 5) (c.f 32 0 64) (c.f 40 0 64) with
      | .error st => .done s st 0 none
      | .ok core =>
        let a := s.accOf c core true
        if !s.dmaTurn c core then .more s
        else withHost c a (s.locHost a ls n) (checked (s.touch c.id core) c core chk (fun s => s.fillFree a ld n) (fun s =>
          match s.readLoc a ls n with
          | .error e => .fail (s.fillFree a ld n) e
          | .ok bs => storeRun s a ld bs))

/-- DMA_COPY (R301). -/
def execDmaCopy (cmd : Nat) (chk : Check) (s : State) : Answer := .next (runCmd s cmd [0x10] (dmaCopy chk))

/-- `n` bytes that repeat an 8-byte pattern. -/
def patternBytes (pat n : Nat) : List Byte := (List.range n).map (fun i => BitVec.ofNat 8 (pat / 2 ^ (8 * (i % 8))))

/-- MEM_FILL (R301): PATTERN repeated over BYTES, a multiple of 8. -/
def memFill (chk : Check) (s : State) (c : Cmd) : Res :=
  let n := c.f 40 0 64
  match s.parseLoc c.part (c.f 32 0 64) true with
  | .error st => .done s st 0 none
  | .ok ld =>
    if n % 8 ≠ 0 ∨ !ld.fits n then .done s 0x0104 0 none
    else match s.dmaCore c (c.f 56 0 5) (c.f 32 0 64) (c.f 32 0 64) with
      | .error st => .done s st 0 none
      | .ok core =>
        let a := s.accOf c core true
        if !s.dmaTurn c core then .more s
        else checked (s.touch c.id core) c core chk (fun s => s.fillFree a ld n)
          (fun s => storeRun s a ld (patternBytes (c.f 48 0 64) n))

/-- MEM_FILL (R301). -/
def execMemFill (cmd : Nat) (chk : Check) (s : State) : Answer := .next (runCmd s cmd [0x12] (memFill chk))

/-! ## DMA_CONVERT, ROTATE and COMPRESS -/

/-- A rounding mode as a command's field names it (R42): only RNE and RTZ. -/
def rndOf (m : Nat) : Option Rnd := if m = 0 then some .rne else if m = 1 then some .rtz else none

/-- Whether an overflow mode is valid for a target (R43). -/
def ovfOk (code : Nat) (ieee : Bool) : Bool :=
  !ieee || (match fmtOf code with | some f => f.hasInf | none => false)

/-- The default overflow mode of a format (R43): IEEE where the format has infinity and is wider than 8 bits. -/
def defaultIeee (code : Nat) : Bool := ovfOk code true && elemBits code == 16

/-- The rounding mode with which a tensor is produced (R50). -/
def Tensor.rnd (t : Tensor) : Rnd := if bitB t.word 11 then .rtz else .rne

/-- The operands of the 96-byte block of R303. -/
structure Move where
  src   : Tensor
  dst   : Tensor
  mask  : Nat
  log2n : Nat
  rnd   : Rnd
  ieee  : Bool
  deriving DecidableEq, Repr

/-- The block of R303 with the first check it fails: reserved bits (R285), descriptors (R300, R50, R41), the rules of R303,
the modes (R42, R43) and the rotation (R66). -/
def State.parseMove (s : State) (c : Cmd) : Except Nat Move :=
  let b := c.block.getD []
  let ln := num b 72 1
  if num b 73 1 / 8 ≠ 0 ∨ num b 74 1 / 32 ≠ 0 ∨ num b 75 8 ≠ 0 ∨ num b 83 13 ≠ 0 then .error 0x0103
  else match s.parseTensor c.part b 0 (c.op == 0x11), s.parseTensor c.part b 32 (c.op == 0x11) with
    | .error st, _ => .error st
    | _, .error st => .error st
    | .ok src, .ok dst =>
      let ieee := bitB (num b 73 1) 2
      if src.rows ≠ dst.rows ∨ src.cols ≠ dst.cols ∨ !dvaOk (num b 64 8) then .error 0x0104
      else if c.op = 0x23 ∧ ln = 0 then .error 0x0104
      else if c.op = 0x30 ∧ (ln ≠ 0 ∨ !dst.packed ∨ src.word ≠ dst.word) then .error 0x0104
      else match rndOf (num b 73 1 % 4) with
        | none => .error 0x0114
        | some rnd =>
          if !ovfOk dst.elem ieee then .error 0x0114
          else if ln ≠ 0 ∧ (ln < 4 ∨ 14 < ln ∨ src.cols % 2 ^ ln ≠ 0) then .error 0x0110
          else .ok { src, dst, mask := num b 64 8, log2n := ln, rnd, ieee }

/-- Whether ROTATE's engine is out of service (R337); DMA commands are answered by `dmaCore`. -/
def State.rotateBarred (s : State) (c : Cmd) (core : Nat) : Bool := c.op == 0x23 && s.fld (Reg.vecFault core) 0 1 == 1

/-- The sign mask of a rotation (R64); a null pointer negates nothing. -/
def State.signMask (s : State) (a : Acc) (m : Move) : Except AccErr (Nat → Bool) :=
  if m.log2n = 0 ∨ m.mask = 0 then .ok (fun _ => false)
  else match s.readDva { a with sealedRd := true } m.mask (2 ^ m.log2n / 8) with
    | .error e => .error e
    | .ok b => .ok (fun i => bitB ((b[i / 8]?.getD 0).toNat) (i % 8))

/-- One row rotated in runs of 2^LOG2N elements (R65, R66). -/
def rotateRow (log2n : Nat) (mask : Nat → Bool) (row : List Val) : List Val :=
  if log2n = 0 then row
  else (chop (2 ^ log2n) row.length row).flatMap (fun run => rotateRun log2n mask (run.map toF32))

/-- The host ranges that a tensor's planes and descriptor reach, for the reads that must come first (R220). -/
def State.tensorHost (s : State) (a : Acc) (t : Tensor) : List (Nat × Nat) :=
  (if t.packed then
    match t.loc with
    | .dva d =>
      s.hostRanges a d 64 ++ (match s.readDva a d 64 with
        | .ok b => match parseCTensor b with
          | .ok ct => s.hostRanges a ct.dir (4 * ct.rows * ct.perRow) ++ s.hostRanges a ct.heap0 (16 * ct.gran0) ++
              s.hostRanges a ct.heap1 (16 * ct.gran1)
          | .error _ => []
        | .error _ => [])
    | .sram _ _ => []
  else s.locHost a t.loc t.extent) ++ (if t.sf = 0 then [] else s.hostRanges a t.scale t.scaleBytes)

/-- The raw bytes of every row of a tensor, for COMPRESS. -/
def State.rawRows (s : State) (a : Acc) (t : Tensor) (ct : Option CTensor) : List Nat → Except OpErr (List (List Byte))
  | [] => .ok []
  | m :: ms =>
    match s.rowBytes a t ct m with
    | .error e => .error e
    | .ok r =>
      match s.rawRows a t ct ms with
      | .error e => .error e
      | .ok rs => .ok (r :: rs)

/-- COMPRESS: the data plane compressed (R122 to R124), the scale plane copied as it is (R106). -/
def State.compressMove (s : State) (a : Acc) (core : Nat) (m : Move) : Res :=
  match s.openTensor a m.src, s.openTensor a m.dst with
  | .error e, _ => e.res s core
  | _, .error e => e.res s core
  | .ok cs, .ok cd =>
    match s.rawRows a m.src cs (List.range m.src.rows) with
    | .error e => e.res (s.freeTensor a m.dst) core
    | .ok rows =>
      match s.storeBytes a m.dst cd rows with
      | (s1, some e) => e.res s1 core
      | (s1, none) =>
        if m.src.sf = 0 then .done s1 0 0 none
        else match s1.readDva a m.src.scale m.src.scaleBytes with
          | .error e => .fail s1 e
          | .ok b => match s1.writeDva a m.dst.scale b with
            | (s2, some e) => .fail s2 e
            | (s2, none) => .done s2 0 0 none

/-- The converting path (R42 to R53, R63 to R66, R124): the source decoded and scaled, rotated, converted and stored. -/
def State.convertMove (s : State) (a : Acc) (c : Cmd) (core : Nat) (m : Move) : Res :=
  match s.openTensor a m.dst with
  | .error e => e.res s core
  | .ok cd =>
    match s.readTensor a m.src with
    | .error e => e.res (s.freeTensor a m.dst) core
    | .ok rows =>
      match s.signMask a m with
      | .error e => .fail (s.freeTensor a m.dst) e
      | .ok mask =>
        let x := convTensor m.dst m.rnd m.ieee (rows.map (rotateRow m.log2n mask))
        let flags := x.flags ||| s.scaleFlag a m.src
        match (s.noteConv core flags x.lost).storeConv a m.dst cd x with
        | (s1, some e) => e.res (s1.freeTensor a m.dst) core
        | (s1, none) =>
          let st := c.convStatus flags
          .done (if st.1 = 0x0111 then s1.freeTensor a m.dst else s1) st.1 st.2
            (if m.dst.packed then none else m.dst.loc.watched)

/-- The tables of a compressed tensor's coded blocks, in the order in which the path decoder meets them (R118, R124). -/
def State.pathTables (s : State) (a : Acc) (t : Tensor) : List Nat :=
  match s.openTensor a t with
  | .ok (some ct) => (List.range (ct.rows * ct.perRow)).filterMap (s.entryTable a ct)
  | _ => []

/-- The path decoder set to work on a command's source: `k` once no block of it waits for a slot (R118, R124). -/
def State.throughPath (s : State) (a : Acc) (c : Cmd) (core : Nat) (t : Tensor) (k : State → Res) : Res :=
  let s := if c.phase = .started then s.runLane core (pathLane c.id) (s.pathTables a t) else s
  if (s.core core).lanes.get (fun _ => []) (pathLane c.id) = [] then k s
  else .more (s.updCmd c.id fun c => { c with phase := .running })

/-- DMA_CONVERT, ROTATE and COMPRESS (R303). -/
def dmaMove (chk : Check) (s : State) (c : Cmd) : Res :=
  let b := c.block.getD []
  match s.parseMove c with
  | .error st => .done s st 0 none
  | .ok m =>
    match s.dmaCore c (num b 74 1 % 32) (num b 0 8) (num b 32 8) with
    | .error st => .done s st 0 none
    | .ok core =>
      let a := s.accOf c core true
      if s.rotateBarred c core then .done s 0x0821 0 none
      else if (c.op = 0x23 ∧ !s.vecTurn c [core]) ∨ (c.op ≠ 0x23 ∧ !s.dmaTurn c core) then .more s
      else withHost c a (s.tensorHost a m.src ++ (if m.dst.packed then s.locHost a m.dst.loc 64 else []) ++
          (if m.mask = 0 ∨ m.log2n = 0 then [] else s.hostRanges a m.mask (2 ^ m.log2n / 8)))
        ((s.touch c.id core).throughPath a c core m.src (fun s =>
          checked s c core chk (fun s => s.freeTensor a m.dst) (fun s =>
            if c.op = 0x30 then s.compressMove a core m else s.convertMove a c core m)))

/-- DMA_CONVERT (R303). -/
def execDmaConvert (cmd : Nat) (chk : Check) (s : State) : Answer := .next (runCmd s cmd [0x11] (dmaMove chk))

/-- ROTATE (R158, R303). -/
def execRotate (cmd : Nat) (chk : Check) (s : State) : Answer := .next (runCmd s cmd [0x23] (dmaMove chk))

/-- COMPRESS (R122, R303). -/
def execCompress (cmd : Nat) (chk : Check) (s : State) : Answer := .next (runCmd s cmd [0x30] (dmaMove chk))

end Sys2Proof.Machine
end

