-- ==== Sys2Proof/Machine/MemCmds.lean ====
section
/-!
DEFINITION. The data cache's commands (R226 to R228, R244), the page tables (R219 to R223), decode tables (R114 to R120), and the
memory controllers' patrol and retraining (R208, R213, R215).
-/
namespace Sys2Proof.Machine

/-! ## The data cache -/

/-- The error of a bad word met at a DPA by a core's cache. -/
def cacheErr (p core dpa status : Nat) : AccErr :=
  { status, part := p, write := true, source := core, dpa := some dpa }

/-- The bytes of a 64-byte unit with a line's dirty bytes laid over them (R244). -/
def Line.merge (l : Line) (old : List Byte) : List Byte :=
  (List.range 64).map (fun i => if bitB l.dirty i then l.data[i]?.getD 0 else old[i]?.getD 0)

/-- Bytes of a unit written to HBM under R211 by a core's cache, `dirty` naming them (R244). -/
def State.putUnit (s : State) (p core : Nat) (l : Line) : State × Option AccErr :=
  let dpa := l.unit * 64
  if s.offline (dpa / stackBase 1) then (s, some { cacheErr p core dpa 0x0311 with dpa := none })
  else if l.dirty ≠ 2 ^ 64 - 1 ∧ (wordsOf dpa 64).any s.hbmBad then (s.poisonUnit dpa, some (cacheErr p core dpa 0x0310))
  else (s.putHbm dpa (l.merge (s.mem.hbm.readN Config.blankByte dpa 64)), none)

/-- A line's dirty bytes written to HBM and counted (R230, R244); a bad dirty line stops its command (R338). -/
def State.writeLine (s : State) (p core : Nat) (l : Line) : State × Option AccErr :=
  if l.dirty = 0 then (s, none)
  else if l.bad ≠ 0 then (s, some { cacheErr p core (l.unit * 64) 0x0310 with dpa := none, sram := some (sramKey core 0) })
  else match s.putUnit p core l with
    | (s1, some e) => (s1, some e)
    | (s1, none) => (s1.count core 0x57 1, none)

/-- What happens to a line: whether it lies in the range, is written back, and stays. -/
structure LineFate where
  write : Bool
  keep  : Bool
  deriving DecidableEq, Repr

/-- The lines of a core in order, each written back and kept clean, or dropped (R228). -/
def State.sweepLines (s : State) (p core : Nat) (fate : Line → LineFate) : List Line → State × List Line × Option AccErr
  | [] => (s, [], none)
  | l :: ls =>
    let f := fate l
    let r := if f.write then s.writeLine p core l else (s, none)
    match r with
    | (s1, some e) => (s1, l :: ls, some e)
    | (s1, none) =>
      let q := s1.sweepLines p core fate ls
      (q.1, (if f.keep then [if f.write then { l with dirty := 0 } else l] else []) ++ q.2.1, q.2.2)

/-- A core's cache swept. -/
def State.sweepCore (s : State) (p core : Nat) (fate : Line → LineFate) : State × Option AccErr :=
  let r := s.sweepLines p core fate (s.core core).cache
  (r.1.updCore core fun k => { k with cache := r.2.1 }, r.2.2)

/-- The listed cores swept in order; the first error stops the sweep. -/
def State.sweepCores (s : State) (p : Nat) (fate : Line → LineFate) : List Nat → State × Option AccErr
  | [] => (s, none)
  | k :: ks =>
    match s.sweepCore p k fate with
    | (s1, some e) => (s1, some e)
    | (s1, none) => s1.sweepCores p fate ks

/-- The 64-byte units of HBM that a DVA range widened to whole lines reaches; pages without a mapping, and host pages, are
skipped (R228). -/
def State.unitsOf (s : State) (a : Acc) (dva n : Nat) : List Nat :=
  let lo := dva / 64
  let hi := (dva + n + 63) / 64
  (List.range (hi - lo)).filterMap (fun i =>
    match s.mapping a ((lo + i) * 64) with
    | some m => if m.host then none else (s.dpaOf a.part (m.target + ((lo + i) * 64 - m.dva))).map (· / 64)
    | none => none)

/-- The units that lie wholly inside the caller's own range, whose edges are not widened (R228). -/
def State.innerUnits (s : State) (a : Acc) (dva n : Nat) : List Nat :=
  let lo := ceilDiv dva 64
  let hi := (dva + n) / 64
  if hi ≤ lo then [] else s.unitsOf a (lo * 64) ((hi - lo) * 64)

/-- CACHE_WRITEBACK and CACHE_INVALIDATE (R228): BYTES 0 is the whole cache. -/
def cacheRun (inval : Bool) (s : State) (c : Cmd) : Res :=
  let start := c.f 32 0 64
  let n := c.f 40 0 64
  let cores := s.coreMask c.part (c.f 48 0 32)
  let discard := inval && c.f 52 0 1 == 1
  let a := s.accOf c 31 false
  if cores.any (fun k => !(s.coresOf c.part).contains k) then .done s 0x0911 0 none
  else if n ≠ 0 ∧ (!dvaOk start || !dvaOk (start + n - 1)) then .done s 0x0104 0 none
  else
    let units := s.unitsOf a start n
    let inner := s.innerUnits a start n
    let fate := fun (l : Line) =>
      let hit := n == 0 || units.contains l.unit
      let drop := discard && (n == 0 || inner.contains l.unit)
      ({ write := hit && !drop, keep := !(hit && inval) } : LineFate)
    let s := cores.foldl (fun s k => s.touch c.id k) s
    match s.sweepCores c.part fate cores with
    | (s1, some e) => .fail s1 e
    | (s1, none) => .done s1 0 0 none

/-- CACHE_WRITEBACK (R228). -/
def execCacheWriteback (cmd : Nat) (s : State) : Answer := .next (runCmd s cmd [0x13] (cacheRun false))

/-- CACHE_INVALIDATE (R228). -/
def execCacheInvalidate (cmd : Nat) (s : State) : Answer := .next (runCmd s cmd [0x14] (cacheRun true))

/-! ## Page tables -/

/-- The lowest DVA bit that a level's table as a whole covers: the bits above it name the table (R219). -/
def tableShift (level : Nat) : Nat := 21 + 9 * level

/-- The table of an address space and level that covers a DVA, without its number. -/
def tableOf (asid level dva : Nat) : PageTable := { asid, level, pre := dva / 2 ^ tableShift level, num := 0 }

/-- Whether two tables are the same table of the tree. -/
def PageTable.same (a b : PageTable) : Bool := a.asid == b.asid && a.level == b.level && a.pre == b.pre

/-- The lowest DVA that a table covers. -/
def PageTable.dva (t : PageTable) : Nat := t.pre * 2 ^ tableShift t.level

/-- The tables that a run of pages needs, the root first (R219). -/
def Mapping.tables (m : Mapping) : List PageTable :=
  let last := m.dva + m.pages * m.page - 1
  ([4, 3, 2, 1] ++ (if m.big then [] else [0])).flatMap (fun l =>
    (List.range (last / 2 ^ tableShift l - m.dva / 2 ^ tableShift l + 1)).map (fun i =>
      { asid := m.asid, level := l, pre := m.dva / 2 ^ tableShift l + i, num := 0 }))

/-- The tables of a run that the partition does not have yet (R221). -/
def Part.missing (x : Part) (m : Mapping) : List PageTable := m.tables.filter (fun t => !x.tables.any t.same)

/-- Numbers for new tables: any of the pool that are free, which the spec does not say (R221; log entry 12). -/
def takeTables (draw : Nat) : List Nat → List PageTable → List PageTable
  | _, [] => []
  | free, t :: ts =>
    let n := free.getD (Config.freeNat draw ts.length % free.length) 0
    { t with num := n } :: takeTables draw (free.erase n) ts

/-- Where the entry lies that covers a DVA in the table of a level (R219): its DPA, if the partition has the table. -/
def State.entryDpa (s : State) (p asid level dva : Nat) : Option Nat :=
  let x := s.part p
  match x.tables.find? (tableOf asid level dva).same with
  | none => none
  | some t => if t.num < x.ptTables then s.dpaOf p (x.ptPool + 4096 * t.num + 8 * (dva / 2 ^ (12 + 9 * level) % 512)) else none

/-- The bits of an entry that points to a table, and those of a leaf (R220). -/
def Part.pointer (x : Part) (t : PageTable) : Nat := 1 + x.ptPool + 4096 * t.num
def Mapping.leaf (m : Mapping) (target : Nat) : Nat :=
  3 + 4 * b2n m.write + 8 * b2n m.user + 16 * b2n m.host + 64 * b2n m.nocache + target

/-- Page-table entries written (R221): DPA and value of each. Each is a write of a part of its 64-byte unit (R211): where one would
meet an offline stack (R208) or an uncorrectable word, none is applied, the unit is poisoned and the command fails. -/
def State.putEntries (s : State) (ws : List (Option Nat × Nat)) : State × Option AccErr :=
  let ds := ws.filterMap (·.1)
  match ds.find? (fun d => s.offline (d / stackBase 1) || (wordsOf (d / 64 * 64) 64).any s.hbmBad) with
  | some d =>
    if s.offline (d / stackBase 1) then (s, some { status := 0x0311, write := true })
    else (s.poisonUnit d, some { status := 0x0310, write := true, dpa := some (d / 64 * 64) })
  | none => (ws.foldl (fun s w => match w.1 with | some d => s.putHbm d (leBytes 8 w.2) | none => s) s, none)

/-- The entries that point to tables. -/
def State.pointers (s : State) (p : Nat) (ts : List PageTable) : List (Option Nat × Nat) :=
  (ts.filter (fun t => t.level < 4)).map (fun t => (s.entryDpa p t.asid (t.level + 1) t.dva, (s.part p).pointer t))

/-- The leaf entries of a run. -/
def State.leaves (s : State) (p : Nat) (m : Mapping) : List (Option Nat × Nat) :=
  (List.range m.pages).map (fun i => (s.entryDpa p m.asid (b2n m.big) (m.dva + i * m.page), m.leaf (m.target + i * m.page)))

/-- An entry made invalid: VALID is 0 and the rest is open (R220, R221). -/
def deadEntry (draw i : Nat) : Nat := 2 * (Config.freeNat draw i % 2 ^ 63)

/-- The mapping that an MMU_MAP or MMU_UNMAP packet names. -/
def Cmd.mapRun (c : Cmd) (since : Nat) : Mapping :=
  let b := c.f 53 0 8
  { asid := c.f 52 0 8, dva := c.f 32 0 64, pages := c.f 48 0 32, big := bitB b 0, target := c.f 40 0 64,
    host := bits b 3 2 == 1, write := bitB b 1, user := bitB b 2, nocache := bitB b 5, since }

/-- The checks of R221 in their order. -/
def State.mapCheck (s : State) (c : Cmd) (m : Mapping) : Nat :=
  let x := s.part c.part
  let n := m.pages * m.page
  if m.pages = 0 ∨ 2 ^ 20 < m.pages ∨ m.dva % m.page ≠ 0 ∨ m.target % m.page ≠ 0 ∨ 2 ≤ bits (c.f 53 0 8) 3 2 ∨
      2 ^ 56 < m.dva + n then 0x0104
  else if !m.host ∧ ((s.stacksOf c.part).length * usable < m.target + n ∨
      overlap m.target n x.ptPool (x.ptTables * 4096)) then 0x0305
  else if (m.host ∧ 2 ^ 52 < m.target + n) ∨ m.dva = 0 then 0x0305
  else if x.maps.any (fun o => o.asid == m.asid && overlap m.dva n o.dva (o.pages * o.page)) then 0x0306
  else if x.ptTables < x.tables.length + (x.missing m).length then 0x0307
  else 0

/-- The state with a run mapped: its new tables taken from the pool, the entries that point to them and its leaf entries written
(R219 to R221); as before where they cannot be written, for a run is mapped whole or not at all. -/
def State.mapPages (s : State) (p : Nat) (m : Mapping) : State × Option AccErr :=
  let x := s.part p
  let free := (List.range x.ptTables).filter (fun n => !x.tables.any (fun t => t.num == n))
  let new := takeTables s.free free (x.missing m)
  let s1 := s.draw.updPart p fun y => { y with maps := y.maps ++ [m], tables := y.tables ++ new }
  match s1.putEntries (s1.pointers p new ++ s1.leaves p m) with
  | (s2, some e) => (s2.updPart p fun _ => x, some { e with part := p, asid := m.asid, dva := m.dva })
  | (s2, none) => (s2, none)

/-- MMU_MAP (R221, R222): all the pages or none, seen by commands dispatched from now on. -/
def mmuMap (s : State) (c : Cmd) : Res :=
  let m := c.mapRun s.fe.nextCmd
  let st := s.mapCheck c m
  if st ≠ 0 then .done s st 0 none
  else match s.mapPages c.part m with
    | (s1, some e) => .fail s1 e
    | (s1, none) => .done s1 0 0 none

/-- MMU_MAP (R221). -/
def execMmuMap (cmd : Nat) (s : State) : Answer := .next (runCmd s cmd [0x84] mmuMap)

/-- What is left of a run when the pages of `[lo, hi)` go (R221). -/
def Mapping.cut (m : Mapping) (lo hi : Nat) : List Mapping :=
  let last := m.dva + m.pages * m.page
  if hi ≤ m.dva ∨ last ≤ lo then [m]
  else
    (if m.dva < lo then [{ m with pages := (lo - m.dva) / m.page }] else []) ++
    (if hi < last then [{ m with dva := hi, pages := (last - hi) / m.page, target := m.target + (hi - m.dva) }] else [])

/-- Whether a host read in flight uses a translation of `[lo, hi)` in an address space (R222). -/
def State.readsThrough (s : State) (p asid lo hi : Nat) : Bool :=
  s.fe.tags.any (fun t => t.part == p && (s.part p).maps.any (fun m =>
    m.asid == asid && m.host &&
      overlap t.addr t.len (m.target + (max lo m.dva - m.dva))
        (min hi (m.dva + m.pages * m.page) - max lo m.dva)))

/-- The state with the pages of `[lo, hi)` of one size unmapped: their leaf entries made invalid, and every table left without a
valid entry back in the pool with the entry that pointed to it invalid, but for a root (R221). -/
def State.unmapPages (s : State) (p asid : Nat) (big : Bool) (lo hi : Nat) : State × Option AccErr :=
  let x := s.part p
  let maps := x.maps.flatMap (fun o => if o.asid = asid ∧ o.big = big then o.cut lo hi else [o])
  let gone := (x.maps.filter (fun o => o.asid == asid && o.big == big)).flatMap (fun o =>
    ((List.range o.pages).map (fun i => o.dva + i * o.page)).filter (fun d => lo ≤ d && d < hi))
  let kept := maps.flatMap Mapping.tables
  let dead := x.tables.filter (fun t => t.level < 4 && !kept.any t.same)
  let ws := (gone.map (fun d => s.entryDpa p asid (b2n big) d) ++ (s.pointers p dead).map (·.1)).zipIdx.map (fun w =>
    (w.1, deadEntry s.free w.2))
  match s.putEntries ws with
  | (s1, some e) => (s1, some { e with part := p, asid, dva := lo })
  | (s1, none) => (s1.draw.updPart p fun y => { y with maps, tables := y.tables.filter (fun t => !dead.contains t) }, none)

/-- MMU_UNMAP (R221, R222): it waits for host reads in flight that use what it removes. -/
def mmuUnmap (s : State) (c : Cmd) : Res :=
  let m := c.mapRun 0
  let hi := m.dva + m.pages * m.page
  if m.pages = 0 ∨ 2 ^ 20 < m.pages ∨ m.dva % m.page ≠ 0 ∨ 2 ^ 56 < hi then .done s 0x0104 0 none
  else if s.readsThrough c.part m.asid m.dva hi then .more s
  else match s.unmapPages c.part m.asid m.big m.dva hi with
    | (s1, some e) => .fail s1 e
    | (s1, none) => .done s1 0 0 none

/-- MMU_UNMAP (R221). -/
def execMmuUnmap (cmd : Nat) (s : State) : Answer := .next (runCmd s cmd [0x85] mmuUnmap)

/-! ## Decode tables -/

/-- The table replaced and its generation counted up (R117, R120). -/
def State.applyTable (s : State) (id : Nat) (img : List Byte) : State :=
  (s.updDtab id fun t => { valid := true, gen := (t.gen + 1) % 4, image := img }).dropSlots id

/-- TABLE_LOAD (R114 to R120): checked, then applied if nothing refers to the ID; else it waits. -/
def tableLoad (s : State) (c : Cmd) : Res :=
  let id := c.f 40 0 6
  let dva := c.f 32 0 64
  let a := s.accOf c 31 true
  if c.phase = .running then .more s
  else if !dvaOk dva then .done s 0x0104 0 none
  else if !s.ownsTable c.part id then .done s 0x0605 0 none
  else if dva % 64 ≠ 0 then .done s 0x0604 0 none
  else withHost c a (s.hostRanges a dva 256) (
    match s.readDva a dva 256 with
    | .error e => .fail s e
    | .ok img =>
      if !tableValid img then .done s 0x0604 0 none
      else if s.tableRefs id = 0 then .done (s.applyTable id img) 0 0 none
      else .more (s.updCmd c.id fun c => { c with phase := .running, block := some img }))

/-- TABLE_LOAD (R114). -/
def execTableLoad (cmd : Nat) (s : State) : Answer := .next (runCmd s cmd [0x31] tableLoad)

/-- TABLE_LOAD_APPLY (R120, R292): the waiting load finds the count zero before its wait expires. -/
def tableLoadApply (s : State) (c : Cmd) : Res :=
  let id := c.f 40 0 6
  if c.phase = .running ∧ s.tableRefs id = 0 ∧ (c.infinite ∨ s.now ≤ c.deadline) then
    .done (s.applyTable id (c.block.getD [])) 0 0 none
  else .more s

/-- TABLE_LOAD_APPLY (R120). -/
def execTableLoadApply (cmd : Nat) (s : State) : Answer := .next (runCmd s cmd [0x31] tableLoadApply)

/-! ## Timeouts -/

/-- WAIT_TIMEOUT (R293): a fence wait whose deadline passed unmet, or a TABLE_LOAD (R120), job command (R383) or
firmware command (R345) still waiting at its own. A wait that is met at its deadline is met (R292). -/
def execWaitTimeout (cmd t : Nat) (s : State) : Answer :=
  let s1 := s.atTime t
  match s1.cmd? cmd with
  | none => .next s
  | some c =>
    if !s.active || c.infinite || s1.now < c.deadline || c.epoch != s.epoch c.part then .next s
    else if c.phase = .dispatched ∧ c.met.isNone then
      .next (s1.retire { c with start := c.dispAt, waited := true } 0x0401 0 false (some c.deadline))
    else if (c.phase = .running ∧ c.op = 0x31 ∧ (s.tableRefs (c.f 40 0 6) ≠ 0 ∨ c.deadline < s1.now)) ∨
        (c.phase = .running ∧ c.isJobOp = true) ∨ (c.phase = .started ∧ (engineOf c.op = 1 ∨ engineOf c.op = 8) ∧ !s.fwRuns) then
      .next (s1.retire c 0x0401 0 false (some c.deadline))
    else .next s

/-! ## The memory controllers -/

/-- The fence whose word lies at an offset of a stack's device region, with its neighbour the next (R205). -/
def fencePairAt (stack off : Nat) : Option Nat :=
  let base := usable + 0x6800000
  if base ≤ off ∧ off < base + 0x1000000 then some (stack * 2 ^ 21 + (off - base) / 16 * 2) else none

/-- The waits on the two fences of a word found uncorrectable: each ends (R343). -/
def State.endWaits (s : State) (k : Nat) : State :=
  let cs := s.fe.cmds.filter (fun c => c.phase == .dispatched && c.met.isNone &&
    (s.fenceKey c.qpart c.waitFence == some k || s.fenceKey c.qpart c.waitFence == some (k + 1)))
  cs.foldl (fun s c => match s.cmd? c.id with
    | some c => (s.logFence k c).retire { c with waited := true } 0x0310 0 false
    | none => s) s

/-- A word the patrol found uncorrectable: poisoned, counted and recorded (R213, R215). -/
def State.patrolBad (s : State) (stack off : Nat) : State :=
  let dpa := stackBase stack + off
  let s := { s with mem := { s.mem with
    hbmBad := s.mem.hbmBad.set (fun _ => false) (dpa / 16) true
    hbmOne := s.mem.hbmOne.set (fun _ => false) (dpa / 16) false } }
  let s := (s.noteHbm dpa true).log stack
    { kind := 0x02, severity := 3, part := s.sliceOwner stack, unit := stack, address := dpa }
  match fencePairAt stack off with
  | some k => s.endWaits k
  | none => s

/-- PATROL_READ (R215): one word of a stack. The patrol pauses while its stack is scrubbed or retrained. A word already
poisoned reads as uncorrectable whatever its bits (R213). -/
def execPatrolRead (stack off : Nat) (seen : WordState) (s : State) : Answer :=
  if 8 ≤ stack ∨ 0xC00000000 ≤ off then .next s
  else
    let dpa := stackBase stack + off
    let go := s.active && !s.offline stack && s.fld (Reg.memStatus stack) 3 1 == 0 && s.fld (Reg.memScrub stack) 15 1 == 0
    let found : WordState := if s.hbmBad (dpa / 16) then .uncorrectable
      else if seen = .sound ∧ s.mem.hbmOne.get (fun _ => false) (dpa / 16) = true then .single else seen
    when go s (match found with
      | .sound => s
      | .single => s.fixHbm (dpa / 16)
      | .uncorrectable => s.patrolBad stack off)

/-- STACK_RETRAIN (R208): firmware retrains a stack in service once its corrected errors within an hour exceed the
threshold. -/
def execStackRetrain (stack : Nat) (s : State) : Answer :=
  if 8 ≤ stack then .next s
  else
    let th := s.fld (Reg.memThresh stack) 0 16
    let go := s.active && s.fwRuns && !s.offline stack && s.fld (Reg.memStatus stack) 3 1 == 0 && th != 0 &&
      decide (th < s.ras.derate.get (fun _ => 0) stack)
    when go s ((s.setFld (Reg.memStatus stack) 3 1 1) )

/-- STACK_RETRAIN_DONE (R208): the highest rate below the old one at which training passed, or offline; contents are kept. -/
def execStackRetrainDone (stack rate : Nat) (s : State) : Answer :=
  if 8 ≤ stack ∨ 3 < rate then .next s
  else
    let go := s.active && s.fld (Reg.memStatus stack) 3 1 == 1 && decide (s.fld (Reg.memStatus stack) 0 2 < rate)
    let s1 := (s.setFld (Reg.memStatus stack) 3 1 0).setFld (Reg.memStatus stack) 0 2 rate
    let s2 := { s1 with ras := { s1.ras with derate := s1.ras.derate.set (fun _ => 0) stack 0 } }
    when go s (s2.log stack
      { kind := if rate = 3 then 0x42 else 0x41, severity := if rate = 3 then 4 else 2, part := s.sliceOwner stack,
        unit := stack, extra := rate })

end Sys2Proof.Machine
end

