-- ==== Sys2Proof/Machine/Sfu.lean ====
section
/-!
DEFINITION. The special-function unit (R147): EXP2, LOG2, RCP and RSQRT. Each computes the exact result to far more bits than
FP32 holds, and takes one of the results within 1 ulp of it, which one by a constant of Config (log entry 11).
-/
namespace Sys2Proof.Machine

/-! ## Exact values to many bits -/

/-- Fraction bits of the intermediate values. -/
def sfuBits : Nat := 256

/-- Newton steps toward the integer square root of `n` from above. -/
def sqrtSteps : Nat → Nat → Nat → Nat
  | 0, _, x => x
  | k + 1, n, x =>
    let y := (x + n / x) / 2
    if y < x then sqrtSteps k n y else x

/-- The integer square root, rounded down. -/
def isqrt (n : Nat) : Nat := if n = 0 then 0 else sqrtSteps 32 n (2 ^ (Nat.log2 n / 2 + 1))

/-- 2 to the fraction of `w` bits `f`, scaled by 2^256: a product of repeated square roots of 2. -/
def exp2Frac : Nat → Nat → Nat → Nat → Nat
  | 0, _, _, acc => acc
  | w + 1, f, r, acc =>
    if f = 0 then acc else
      let r := isqrt (r * 2 ^ sfuBits)
      let b := f / 2 ^ w
      exp2Frac w (f % 2 ^ w) r (if b = 1 then acc * r / 2 ^ sfuBits else acc)

/-- `k` bits of the fraction of log₂ of `x`, a number in [1, 2) scaled by 2^256, by repeated squaring. -/
def log2Bits : Nat → Nat → Nat → Nat
  | 0, _, acc => acc
  | k + 1, x, acc =>
    let y := x * x / 2 ^ sfuBits
    if 2 ^ (sfuBits + 1) ≤ y then log2Bits k (y / 2) (2 * acc + 1) else log2Bits k y (2 * acc)

/-- A positive magnitude as m · 2^e: its exact value where `sharp`, else the real number lies above it and below the next
FP32 value. -/
structure Approx where
  m     : Nat
  e     : Int
  sharp : Bool
  deriving DecidableEq, Repr

/-- 2^x for a finite x with |x| < 2^8. -/
def exp2Of (neg : Bool) (m : Nat) (e : Int) : Approx :=
  let w : Nat := 160
  let x := signInt neg m * 2 ^ (e + (w : Int)).toNat
  let n := x / (2 ^ w : Nat)
  let f := (x % (2 ^ w : Nat)).toNat
  { m := exp2Frac w f (2 * 2 ^ sfuBits) (2 ^ sfuBits), e := n - (sfuBits : Int), sharp := f == 0 }

/-- The magnitude of log₂ of m · 2^e, with its sign. -/
def log2Of (m : Nat) (e : Int) : Bool × Approx :=
  let k := Nat.log2 m
  let n := e + k
  let f := log2Bits 112 (m * 2 ^ sfuBits / 2 ^ k) 0
  if f = 0 ∧ m = 2 ^ k then (n < 0, { m := n.natAbs, e := 0, sharp := true })
  else
    let x := n * 2 ^ 112 + f
    if x < 0 then (true, { m := (-x - 1).toNat, e := -112, sharp := false })
    else (false, { m := x.toNat, e := -112, sharp := false })

/-- 1 ÷ (m · 2^e). -/
def rcpOf (m : Nat) (e : Int) : Approx := { m := 2 ^ 128 / m, e := -e - 128, sharp := 2 ^ 128 % m == 0 }

/-- 1 ÷ √(m · 2^e). -/
def rsqrtOf (m : Nat) (e : Int) : Approx :=
  let m := if e % 2 = 0 then m else 2 * m
  let e := if e % 2 = 0 then e else e - 1
  let r := isqrt (2 ^ 400 / m)
  { m := r, e := -(e / 2) - 200, sharp := r * r * m == 2 ^ 400 }

/-! ## The result -/

/-- One of the FP32 magnitude codes within 1 ulp of a value: the two around it, or itself and its neighbours where it is
representable; infinity from 2^128 upward. -/
def nearCode (pick : Nat) (x : Approx) : Nat :=
  let lo := fp32.magCode .rtz x.m x.e
  let hi := fp32.magCode .rup x.m x.e
  if fp32.maxCode < lo then fp32.infCode
  else if x.sharp && lo == hi then (if lo = 0 then pick % 2 else lo + pick % 3 - 1) else lo + pick % 2

/-- The sign bit of an FP32 code. -/
def signBit (neg : Bool) : Nat := b2n neg * 2 ^ 31

/-- A special function of an FP32 code: 0 EXP2, 1 LOG2, 2 RCP, 3 RSQRT, with the special inputs of R147. -/
def sfu (fn : Nat) (x : Nat) : Nat :=
  let pick := Config.sfu fn x
  let qnan := 0x7FC00000
  match fn, ofF32 x with
  | _, .nan => qnan
  | 0, .inf neg => if neg then 0 else fp32.infCode
  | 0, .fin neg m e =>
    if !neg && !(Val.fin neg m e).lt (.fin false 128 0) then fp32.infCode
    else if (Val.fin neg m e).lt (.fin true 150 0) then 0
    else nearCode pick (exp2Of neg m e)
  | 1, .inf neg => if neg then qnan else fp32.infCode
  | 1, .fin neg m e =>
    if m = 0 then signBit true + fp32.infCode
    else if neg then qnan
    else
      let r := log2Of m e
      if r.2.m = 0 ∧ r.2.sharp then (if pick % 3 = 2 then signBit true + 1 else pick % 3)
      else signBit r.1 + nearCode pick r.2
  | 2, .inf neg => signBit neg
  | 2, .fin neg m e => signBit neg + if m = 0 then fp32.infCode else nearCode pick (rcpOf m e)
  | _, .inf neg => if neg then qnan else 0
  | _, .fin neg m e =>
    if m = 0 then signBit neg + fp32.infCode
    else if neg then qnan
    else nearCode pick (rsqrtOf m e)

/-- `a ÷ b` as R147 gives it: RCP, MUL and the optional FMA correction. -/
def fDiv (a b : Nat) : Nat :=
  let r := sfu 2 b
  let q := fMul a r
  if Config.divCorrect then fFma (fFma (toF32 (ofF32 b).neg) q a) r q else q

/-- exp(x) as R131 and R147 give it. -/
def fExp (x : Nat) : Nat := sfu 0 (fMul x 0x3FB8AA3B)

end Sys2Proof.Machine
end

