-- ==== Sys2Proof/Machine/Sha3.lean ====
section
/-!
DEFINITION. The Keccak functions that the spec names: SHAKE256 (FIPS 202) and KMAC256 (NIST SP 800-185), over byte strings.
-/
namespace Sys2Proof.Machine

/-! ## Keccak-f[1600] -/

/-- A 64-bit lane rotated left. -/
def rotl64 (x n : Nat) : Nat := (x * 2 ^ (n % 64) + x / 2 ^ (64 - n % 64)) % 2 ^ 64

/-- A lane's complement. -/
def not64 (x : Nat) : Nat := 2 ^ 64 - 1 - x

/-- Lane `i` of a state: lanes are listed row by row, lane 5y + x in column x of row y. -/
def laneAt (a : List Nat) (i : Nat) : Nat := a.getD i 0

/-- The rotation of each lane in ρ. -/
def rhoBy : List Nat :=
  [0, 1, 62, 28, 27, 36, 44, 6, 55, 20, 3, 10, 43, 25, 39, 41, 45, 15, 21, 8, 18, 2, 61, 56, 14]

/-- The round constants of ι. -/
def iotaBy : List Nat :=
  [0x0000000000000001, 0x0000000000008082, 0x800000000000808A, 0x8000000080008000, 0x000000000000808B, 0x0000000080000001,
   0x8000000080008081, 0x8000000000008009, 0x000000000000008A, 0x0000000000000088, 0x0000000080008009, 0x000000008000000A,
   0x000000008000808B, 0x800000000000008B, 0x8000000000008089, 0x8000000000008003, 0x8000000000008002, 0x8000000000000080,
   0x000000000000800A, 0x800000008000000A, 0x8000000080008081, 0x8000000000008080, 0x0000000080000001, 0x8000000080008008]

/-- Two lists of lanes combined lane by lane. -/
def xorLanes : List Nat → List Nat → List Nat
  | a :: as, b :: bs => (a ^^^ b) :: xorLanes as bs
  | _, _ => []

/-- The parities of the columns of the rows listed. -/
def parities : Nat → List Nat → List Nat
  | 0, _ => [0, 0, 0, 0, 0]
  | n + 1, a => xorLanes (a.take 5) (parities n (a.drop 5))

/-- θ: every lane takes the parities of two neighbouring columns. -/
def theta (a : List Nat) : List Nat :=
  match parities 5 a with
  | [c0, c1, c2, c3, c4] =>
    let d := [c4 ^^^ rotl64 c1 1, c0 ^^^ rotl64 c2 1, c1 ^^^ rotl64 c3 1, c2 ^^^ rotl64 c4 1, c3 ^^^ rotl64 c0 1]
    xorLanes a (d ++ d ++ d ++ d ++ d)
  | _ => []

/-- Where π takes each lane from. -/
def piFrom : List Nat :=
  [0, 6, 12, 18, 24, 3, 9, 10, 16, 22, 1, 7, 13, 19, 20, 4, 5, 11, 17, 23, 2, 8, 14, 15, 21]

/-- Every lane rotated by its amount. -/
def rotAll : List Nat → List Nat → List Nat
  | a :: as, n :: ns => rotl64 a n :: rotAll as ns
  | _, _ => []

/-- ρ and π: lane (x, y) takes the rotated lane (x + 3y, x). -/
def rhoPi (a : List Nat) : List Nat :=
  let r := rotAll a rhoBy
  piFrom.map (laneAt r)

/-- χ: in each row, every lane takes its two right-hand neighbours' product. -/
def chi : List Nat → List Nat
  | a :: b :: c :: d :: e :: t =>
    (a ^^^ (not64 b &&& c)) :: (b ^^^ (not64 c &&& d)) :: (c ^^^ (not64 d &&& e)) :: (d ^^^ (not64 e &&& a)) ::
      (e ^^^ (not64 a &&& b)) :: chi t
  | _ => []

/-- One round. -/
def keccakRound (a : List Nat) (rc : Nat) : List Nat :=
  match chi (rhoPi (theta a)) with
  | x :: xs => (x ^^^ rc) :: xs
  | [] => []

/-- The permutation of the 25 lanes. -/
def keccakF (a : List Nat) : List Nat := iotaBy.foldl keccakRound a

/-! ## The sponge -/

/-- Bytes to a block of the 256-bit strength. -/
def keccakRate : Nat := 136

/-- The lanes of a block. -/
def lanesOf : Nat → List Byte → List Nat
  | 0, _ => []
  | n + 1, m => leNat (m.take 8) :: lanesOf n (m.drop 8)

/-- A block of a padded message absorbed. -/
def absorb (a : List Nat) (blk : List Byte) : List Nat :=
  keccakF (xorLanes a (lanesOf 17 blk ++ List.replicate 8 0))

/-- A message with its domain bits and the padding to whole blocks: the suffix byte first, and bit 7 of the last byte. -/
def padBlock (suffix : Nat) (m : List Byte) : List Byte :=
  let k := keccakRate - m.length % keccakRate
  m ++ (List.range k).map (fun i => BitVec.ofNat 8 ((if i = 0 then suffix else 0) + (if i + 1 = k then 0x80 else 0)))

/-- A byte string cut into blocks. -/
def blocksOf : Nat → List Byte → List (List Byte)
  | 0, _ => []
  | n + 1, m => m.take keccakRate :: blocksOf n (m.drop keccakRate)

/-- `n` blocks of output. -/
def squeeze : Nat → List Nat → List Byte
  | 0, _ => []
  | n + 1, a => (a.take 17).flatMap (leBytes 8) ++ squeeze n (keccakF a)

/-- The sponge of capacity 512 with a suffix byte: `n` bytes of output. -/
def sponge (suffix : Nat) (m : List Byte) (n : Nat) : List Byte :=
  let p := padBlock suffix m
  let a := (blocksOf (p.length / keccakRate) p).foldl absorb (List.replicate 25 0)
  (squeeze (n / keccakRate + 1) a).take n

/-- `n` bytes of SHAKE256 over a byte string. -/
def shake256 (m : List Byte) (n : Nat) : List Byte := sponge 0x1F m n

/-! ## KMAC256 -/

/-- The bytes of a number, most significant first, at least one. -/
def beBytes : Nat → Nat → List Byte
  | 0, _ => []
  | fuel + 1, x => if x < 256 then [BitVec.ofNat 8 x] else beBytes fuel (x / 256) ++ [BitVec.ofNat 8 x]

/-- left_encode and right_encode: a number with the count of its bytes before or behind it. -/
def leftEncode (x : Nat) : List Byte := BitVec.ofNat 8 (beBytes 255 x).length :: beBytes 255 x
def rightEncode (x : Nat) : List Byte := beBytes 255 x ++ [BitVec.ofNat 8 (beBytes 255 x).length]

/-- encode_string: a byte string behind its length in bits. -/
def encodeString (m : List Byte) : List Byte := leftEncode (8 * m.length) ++ m

/-- bytepad to whole blocks. -/
def bytePad (m : List Byte) : List Byte :=
  let z := leftEncode keccakRate ++ m
  z ++ List.replicate ((keccakRate - z.length % keccakRate) % keccakRate) 0

/-- The bytes of an ASCII string. -/
def asciiBytes (t : String) : List Byte := t.toList.map (fun c => BitVec.ofNat 8 c.toNat)

/-- KMAC256: key, data, output bytes and customisation string. -/
def kmac256 (key data : List Byte) (n : Nat) (custom : String) : List Byte :=
  sponge 0x04 (bytePad (encodeString (asciiBytes "KMAC") ++ encodeString (asciiBytes custom)) ++
    bytePad (encodeString key) ++ data ++ rightEncode (8 * n)) n

end Sys2Proof.Machine
end

