-- ==== Sys2Proof/Machine/VecImage.lean ====
section
/-!
DEFINITION. Vector instructions as 64-bit words (R144, R145), the validation of a program image (R155, R156), and PROGRAM_LOAD
with the partition's measurement log (R157, R407).
-/
namespace Sys2Proof.Machine

/-! ## Words -/

/-- Bits [12:0], common to every format (R144). -/
def vecHead (op mask : Nat) (zm int : Bool) : Nat := op + mask * 2 ^ 8 + b2n zm * 2 ^ 11 + b2n int * 2 ^ 12

/-- An instruction of format A, or of format B under the opcode 0x40 above it when it carries an immediate (R144, R145).
EXTRACT has only a format-B form, under its own opcode. -/
def vaWord (op : Nat) (v : VA) : Nat :=
  match v.imm with
  | none => vecHead op v.mask v.zm v.int + v.vd * 2 ^ 13 + v.va * 2 ^ 18 + v.vb * 2 ^ 23 + v.vc * 2 ^ 28
  | some i => vecHead (if op = 0x31 then op else op + 0x40) v.mask v.zm v.int + v.vd * 2 ^ 13 + v.va * 2 ^ 18 + i.toNat * 2 ^ 32

/-- An instruction of format L (R144). -/
def vlWord (op : Nat) (v : VL) : Nat :=
  vecHead op v.mask v.zm v.int + v.vr * 2 ^ 13 + v.sbase * 2 ^ 18 + v.vidx * 2 ^ 23 + b2n v.glob * 2 ^ 28 + b2n v.rtz * 2 ^ 29 +
    b2n v.ieee * 2 ^ 30 + v.fmt.toNat * 2 ^ 32 + v.off.toNat * 2 ^ 48

/-- An instruction of format S (R144). -/
def vsWord (op : Nat) (v : VS) : Nat :=
  vecHead op v.mask v.zm false + v.sd * 2 ^ 13 + v.sa * 2 ^ 18 + v.sb * 2 ^ 23 + v.cond * 2 ^ 28 + v.imm.toNat * 2 ^ 32

/-- Whether the fields of an instruction fit their places (R144). -/
def vaFits (v : VA) : Bool := v.mask < 8 && v.vd < 32 && v.va < 32 && v.vb < 32 && v.vc < 32
def vlFits (v : VL) : Bool := v.mask < 8 && v.vr < 32 && v.sbase < 32 && v.vidx < 32
def vsFits (v : VS) : Bool := v.mask < 8 && v.sd < 32 && v.sa < 32 && v.sb < 32 && v.cond < 8

/-! ## Images -/

/-- A format of R144. -/
inductive VFmt where
  | a | b | l | s
  deriving DecidableEq, Repr

/-- The format of an opcode; none for a reserved code (R145). -/
def vecFmt (op : Nat) : Option VFmt :=
  if [0x01, 0x02, 0x03, 0x04, 0x05, 0x06, 0x08, 0x09, 0x0A, 0x0B, 0x0C, 0x10, 0x11, 0x12, 0x13, 0x14, 0x15, 0x18, 0x19,
      0x20, 0x21, 0x22, 0x23, 0x28, 0x29, 0x2A, 0x2B, 0x2C, 0x2D, 0x2E, 0x30, 0x34, 0x35, 0x36, 0x37].contains op then some .a
  else if op = 0x31 ∨ (0x41 ≤ op ∧ op ≤ 0x46) ∨ (0x50 ≤ op ∧ op ≤ 0x55) then some .b
  else if 0x60 ≤ op ∧ op ≤ 0x63 then some .l
  else if [0x68, 0x70, 0x71, 0x72, 0x73, 0x74, 0x75, 0x78, 0x7F].contains op then some .s
  else none

/-- The reserved bits of a format (R144); TYPE is reserved in format S. -/
def vecRsvdOk (f : VFmt) (w : Nat) : Bool :=
  match f with
  | .a => bits w 33 31 == 0
  | .b => bits w 23 9 == 0
  | .l => bits w 31 1 == 0
  | .s => bits w 31 1 == 0 && bits w 12 1 == 0

/-- IMM32 of a branch as a signed count (R145). -/
def immInt (w : Nat) : Int := sgn 32 (bits w 32 32)

/-- Whether instruction `i` of `n` is valid (R156). -/
def insnOk (n i w : Nat) : Bool :=
  let op := bits w 0 8
  match vecFmt op with
  | none => false
  | some f =>
    vecRsvdOk f w &&
    (if 0x08 ≤ op ∧ op ≤ 0x0B then bits w 16 2 == 0 && bits w 13 3 != 0
     else if 0x34 ≤ op ∧ op ≤ 0x36 then bits w 16 2 == 0 && bits w 13 3 != 0 && bits w 21 2 == 0 && (op == 0x36 || bits w 26 2 == 0)
     else if op = 0x37 then bits w 21 2 == 0
     else if f = .l then wordOk (bits w 32 16)
     else if op = 0x31 then bits w 32 32 < 512
     else if op = 0x68 then 4 ≤ bits w 32 4 && bits w 32 4 ≤ 14
     else if op = 0x78 then bits w 28 3 != 7 && decide (0 ≤ (i : Int) + immInt w) && decide ((i : Int) + immInt w < n)
     else true)

/-- Instruction `i` of an image (R155). -/
def imageWord (img : List Byte) (i : Nat) : Nat := num img (64 + 8 * i) 8

/-- Whether a header is valid: its fields, its reserved bytes, and the image's length (R155). -/
def headerValid (img : List Byte) : Bool :=
  let n := num img 4 4
  64 ≤ img.length && num img 0 2 == 1 && num img 2 1 == 1 && num img 3 1 == 0 && 1 ≤ n && n ≤ 8192 && num img 8 1 < 128 &&
    num img 9 1 ≤ 16 && num img 10 54 == 0 && img.length == 64 + 8 * n

/-- The index that DETAIL holds for an invalid image: the first bad instruction, or 0xFF_FFFF for a bad header (R156). -/
def imageFault (img : List Byte) : Option Nat :=
  let n := num img 4 4
  if !headerValid img then some 0xFFFFFF
  else match (List.range n).find? (fun i => !insnOk n i (imageWord img i)) with
    | some i => some i
    | none =>
      let w := imageWord img (n - 1)
      if bits w 0 8 = 0x7F ∨ (bits w 0 8 = 0x78 ∧ bits w 28 3 = 0) then none else some (n - 1)

/-! ## The measurement log -/

/-- A log entry (R408). -/
def logEntry (kind handle flags slot progKind time : Nat) (setId digest : List Byte) : List Byte :=
  leBytes 1 kind ++ leBytes 1 handle ++ leBytes 1 flags ++ leBytes 1 slot ++ leBytes 2 progKind ++ leBytes 2 0 ++
    leBytes 8 time ++ padTo 16 setId ++ padTo 32 digest

/-- PMR_p (R407): 32 bytes, as the log's entries extend it from 0. -/
def pmrOf (log : List (List Byte)) : List Byte :=
  log.foldl (fun pmr e => shake256 (pmr ++ e) 32) (List.replicate 32 0)

/-- A byte string shown in consecutive registers from an offset. -/
def State.setBytes (s : State) (off : Nat) (bs : List Byte) : State :=
  (List.range (bs.length / 4)).foldl (fun s i => s.setReg (off + 4 * i) (BitVec.ofNat 32 (num bs (4 * i) 4))) s

/-- A partition's log set, and PMR_p with it (R407). -/
def State.setLog (s : State) (p : Nat) (log : List (List Byte)) : State :=
  (s.updPart p fun x => { x with plog := log }).setBytes (Reg.pmr p 0) (pmrOf log)

/-- An entry appended to a partition's log (R407). -/
def State.measure (s : State) (p : Nat) (e : List Byte) : State := s.setLog p ((s.part p).plog ++ [e])

/-! ## The program store -/

/-- Bytes of the store in use: each image takes its size rounded to 64 bytes (R156). -/
def storeUsed (ps : Tbl Program) : Nat := ps.foldl (fun n p => n + alignUp p.2.image.length 64) 0

/-- The handle that a stored image gets: any that the store does not use (R156; log entry 7). -/
def freeHandle (draw : Nat) (ps : Tbl Program) : Nat :=
  let left := (List.range 256).filter (fun k => !ps.any (fun q => q.1 == k))
  left.getD (Config.freeNat draw 0 % left.length) 0

/-- PROGRAM_LOAD (R156, R157): the image is validated, gets a handle, and is measured. -/
def programLoad (s : State) (c : Cmd) : Res :=
  let dva := c.f 32 0 64
  let n := c.f 40 0 32
  let a := s.accOf c 31 true
  if n < 64 ∨ 65600 < n then .done s 0x0118 0xFFFFFF none
  else if !dvaOk dva then .done s 0x0104 0 none
  else withHost c a (s.hostRanges a dva n) (match s.readDva a dva n with
    | .error e => .fail s e
    | .ok img =>
      match imageFault img with
      | some i => .done s 0x0118 i none
      | none =>
        let ps := (s.part c.part).progs
        if 256 ≤ ps.length ∨ 0x1000000 * s.nSlices c.part < storeUsed ps + alignUp n 64 then .done s 0x0910 0 none
        else
          let h := freeHandle s.free ps
          let s := s.draw.updPart c.part fun x => { x with progs := ps.set (fun _ => {}) h { image := img } }
          .done (s.measure c.part (logEntry 1 h 0 0xFF 1 s.now [] (shake256 img 32))) 0 h none)

/-- PROGRAM_LOAD (R156). -/
def execProgramLoad (cmd : Nat) (s : State) : Answer := .next (runCmd s cmd [0x86] programLoad)

end Sys2Proof.Machine
end

