-- ==== Sys2Proof/Machine/VecCore.lean ====
section
/-!
DEFINITION. One instruction of a vector engine: the registers (R141), the word that the PC selects (R155, R159), the check and
replay (R153, R154, R334), masking (R150), the retirement, and how a run ends (R159 to R161, R227).
-/
namespace Sys2Proof.Machine

/-! ## Registers -/

/-- A vector register: 512 lanes (R141). -/
def State.vreg (s : State) (core r : Nat) : List Word := (s.core core).v.get (fun _ => List.replicate 512 0) r
def State.setVreg (s : State) (core r : Nat) (xs : List Word) : State :=
  s.updCore core fun k => { k with v := k.v.set (fun _ => List.replicate 512 0) r xs }

/-- A mask register; M0 reads all ones (R141). -/
def State.mreg (s : State) (core r : Nat) : BitVec 512 :=
  if r = 0 then BitVec.allOnes 512 else (s.core core).m.get (fun _ => 0) r
/-- M0 cannot be written (R141). -/
def State.setMreg (s : State) (core r : Nat) (x : BitVec 512) : State :=
  if r = 0 then s else s.updCore core fun k => { k with m := k.m.set (fun _ => 0) r x }

/-- A scalar register; S0 reads 0 (R141). -/
def State.sreg (s : State) (core r : Nat) : BitVec 64 := if r = 0 then 0 else (s.core core).x.get (fun _ => 0) r
/-- S0 ignores writes (R141). -/
def State.setSreg (s : State) (core r : Nat) (x : BitVec 64) : State :=
  if r = 0 then s else s.updCore core fun k => { k with x := k.x.set (fun _ => 0) r x }

/-! ## What an instruction answers -/

/-- The end of an instruction: the next one, a branch, END, a status that stops the run, or a failed access. -/
inductive VOut where
  | next (s : State)
  | jump (s : State) (pc : Nat)
  | ended (s : State)
  | stop (s : State) (status : Nat)
  | fail (s : State) (e : AccErr)

/-! ## The end of a run -/

/-- A core's run over: the engine is idle (R163). -/
def State.endVRun (s : State) (core : Nat) : State :=
  (s.updCore core fun k => { k with run := none }).setFld (Reg.vecStatus core) 13 1 0

/-- The cores that still run a command's program. -/
def State.runCores (s : State) (cmd : Nat) : List Nat :=
  (List.range 24).filter (fun k => match (s.core k).run with | some r => r.cmd == cmd | none => false)

/-- The release of a run: every dirty line of its cores is written back (R227). -/
def State.release (s : State) (c : Cmd) : State × Option AccErr :=
  s.sweepCores c.part (fun _ => { write := true, keep := true }) (s.coreMask c.part (c.f 44 0 32))

/-- A run stopped on every core with an error; DETAIL holds the index of the instruction (R154, R160, R161). -/
def State.stopRun (s : State) (c : Cmd) (status index : Nat) : State :=
  let s := (s.runCores c.id).foldl (fun s k => s.endVRun k) s
  let s := (s.release c).1
  match s.cmd? c.id with
  | some c => s.endRun c status index none
  | none => s

/-- The completion of a run that ended on every core (R161). -/
def State.finishRun (s : State) (c : Cmd) : State :=
  let conv := c.flags % 256
  match s.release c with
  | (s1, some e) =>
    match s1.cmd? c.id with
    | some c => (s1.noteErr e c.queue c.seq.toNat).endRun c e.status 0 none
    | none => s1
  | (s1, none) =>
    match s1.cmd? c.id with
    | some c => s1.endRun c (if conv = 0 then 0 else 0x0002) c.flags none
    | none => s1

/-! ## One instruction -/

/-- The program image of a run. -/
def State.runImage (s : State) (c : Cmd) (r : VRun) : List Byte := ((s.part c.part).progs.get (fun _ => {}) r.handle).image

/-- The instruction limit of a run (R160). -/
def Cmd.insnLimit (c : Cmd) : Nat := if c.f 52 0 32 = 0 then 2 ^ 32 else c.f 52 0 32

/-- An instruction retired: the next PC, the count of R160, VEC_INSN, and progress (R160, R343). -/
def State.retireInsn (s : State) (core pc : Nat) : State :=
  (((s.updCore core fun k => { k with run := k.run.map (fun r => { r with pc, count := r.count + 1 }) }).setFld
    (Reg.vecStatus core) 0 13 pc).count core 0x30 1).progress core 1

/-- Whether every core that a VECTOR_RUN names has begun its run (R159, R233). -/
def Cmd.allBegun (c : Cmd) : Bool := (ones (c.f 44 0 32) 32).all c.traced.contains

/-- A core executed END: its flags join the command's, and the run completes with the last core (R159, R161). -/
def State.endCore (s : State) (core : Nat) (c : Cmd) : State :=
  let fl := match (s.core core).run with | some r => r.conv + 256 * r.arith | none => 0
  let s := (s.endVRun core).updCmd c.id fun c => { c with flags := c.flags ||| fl }
  match s.cmd? c.id with
  | some c => if (s.runCores c.id).isEmpty && c.allBegun then s.finishRun c else s
  | none => s

/-- What the end of an instruction does to its run. -/
def VOut.apply (o : VOut) (core : Nat) (r : VRun) (c : Cmd) : State :=
  match o with
  | .next s => s.retireInsn core (r.pc + 1)
  | .jump s pc => s.retireInsn core pc
  | .ended s => (s.retireInsn core r.pc).endCore core c
  | .stop s st => s.stopRun c st r.pc
  | .fail s e => (s.noteErr e c.queue c.seq.toNat).stopRun c e.status r.pc

/-- Whether a core's run stands at this instruction and may execute it: the command runs, the word at its PC is this one
(R155), and the limit is not reached (R160). -/
def State.atInsn (s : State) (c : Cmd) (r : VRun) (word : Nat) : Bool :=
  s.canRun c && imageWord (s.runImage c r) r.pc == word && r.count < c.insnLimit

/-- One vector instruction on a core: checked and issued again once on a mismatch (R154), then executed by its body. -/
def vecStep (core : Nat) (chk : Check) (fits : Bool) (word : Nat) (body : Cmd → VRun → State → VOut) (s : State) : Answer :=
  if 24 ≤ core then .next s
  else match (s.core core).run with
    | none => .next s
    | some r =>
      match s.cmd? r.cmd with
      | none => .next s
      | some c =>
        if !(fits && s.atInsn c r word) then .next s
        else match chk with
          | .ok => .next ((body c r s).apply core r c)
          | .transient => .next ((body c r (s.unitReplay c core)).apply core r c)
          | .permanent =>
            let b := s.unitBroken c core
            .next (b.1.stopRun c b.2 r.pc)
          | .path id false => .next ((body c r (s.pathReplay c core id)).apply core r c)
          | .path id true => .next ((s.pathBroken c core id).stopRun c 0x0801 r.pc)

/-- A format-A or format-B instruction whose format-B form is `bForm` (R145). -/
def vecA (op : Nat) (bForm : Bool) (v : VA) (body : State → State) (s : State) : Answer :=
  vecStep v.core v.chk (vaFits v && (bForm || v.imm.isNone)) (vaWord op v) (fun _ _ s => .next (body s)) s

/-- A format-S instruction. -/
def vecS (op : Nat) (v : VS) (body : State → VOut) (s : State) : Answer :=
  vecStep v.core v.chk (vsFits v) (vsWord op v) (fun _ _ s => body s) s

/-! ## Lanes -/

/-- A lane-wise result laid over a destination: active lanes take it, others keep or clear (R150). -/
def laneMerge (act : BitVec 512) (zm : Bool) (old new : List Word) : List Word :=
  (old.zip new).mapIdx (fun i x => if act.getLsbD i then x.2 else if zm then 0 else x.1)

/-- The values of the active lanes, ascending. -/
def activeVals (act : BitVec 512) (xs : List Word) : List Nat :=
  (xs.zipIdx.filter (fun x => act.getLsbD x.2)).map (fun x => x.1.toNat)

/-- A mask register from its bits, lane 0 first. -/
def ofBits : List Bool → Nat
  | [] => 0
  | b :: bs => b2n b + 2 * ofBits bs

/-- A mask result laid over a destination (R150). -/
def maskMerge (act : BitVec 512) (zm : Bool) (old new : BitVec 512) : BitVec 512 :=
  (new &&& act) ||| (if zm then 0 else old &&& ~~~act)

/-- The operands of a lane-wise instruction: a, b (the immediate in format B), c (the old destination in format B). -/
def vaArgs (v : VA) (s : State) : List (Nat × Nat × Nat) :=
  let a := s.vreg v.core v.va
  let b := match v.imm with
    | some i => List.replicate 512 i
    | none => s.vreg v.core v.vb
  let c := s.vreg v.core (if v.imm.isSome then v.vd else v.vc)
  (a.zip (b.zip c)).map (fun x => (x.1.toNat, x.2.1.toNat, x.2.2.toNat))

/-- A lane-wise instruction: `f` gives the result and flags of a lane from a, b and c; inactive lanes raise no flag. -/
def vecLanes (v : VA) (f : Nat × Nat × Nat → Nat × Nat) (s : State) : State :=
  let act := s.mreg v.core v.mask
  let rs := (vaArgs v s).map f
  let fl := (rs.zipIdx.filter (fun x => act.getLsbD x.2)).foldl (fun n x => n ||| x.1.2) 0
  (s.addArith v.core fl).setVreg v.core v.vd
    (laneMerge act v.zm (s.vreg v.core v.vd) (rs.map (fun r => BitVec.ofNat 32 r.1)))

/-- A comparison: the destination is a mask, and the old mask selects the lanes (R145, R150). -/
def vecCompare (v : VA) (f : Nat → Nat → Bool) (s : State) : State :=
  let new := BitVec.ofNat 512 (ofBits ((vaArgs v s).map (fun x => f x.1 x.2.1)))
  s.setMreg v.core (v.vd % 8) (maskMerge (s.mreg v.core v.mask) v.zm (s.mreg v.core (v.vd % 8)) new)

/-- A mask instruction, lane by lane (R145, R150). -/
def vecMask (v : VA) (f : BitVec 512 → BitVec 512 → BitVec 512) (s : State) : State :=
  let new := f (s.mreg v.core (v.va % 8)) (s.mreg v.core (v.vb % 8))
  s.setMreg v.core (v.vd % 8) (maskMerge (s.mreg v.core v.mask) v.zm (s.mreg v.core (v.vd % 8)) new)

/-- A result written to every lane. -/
def vecSplat (v : VA) (x fl : Nat) (s : State) : State :=
  (s.addArith v.core fl).setVreg v.core v.vd (List.replicate 512 (BitVec.ofNat 32 x))

/-! ## Lane arithmetic (R146) -/

/-- An FP32 operation with its flags. -/
def fp2 (f : Nat → Nat → Nat) (x : Nat × Nat × Nat) : Nat × Nat :=
  let r := f x.1 x.2.1
  (r, arithFlags [x.1, x.2.1] r)

/-- An INT32 operation: the low 32 bits, no flag. -/
def int2 (f : Nat → Nat → Nat) (x : Nat × Nat × Nat) : Nat × Nat := (f x.1 x.2.1 % 2 ^ 32, 0)

/-- INT32 subtraction. -/
def iSub (a b : Nat) : Nat := a + 2 ^ 32 - b

/-- The lesser in FP32: −0 below +0, a number before NaN. -/
def fMin (a b : Nat) : Nat :=
  if isNan32 a then (if isNan32 b then 0x7FC00000 else b)
  else if isNan32 b then a
  else if (ofF32 a).lt (ofF32 b) then a
  else if (ofF32 b).lt (ofF32 a) then b
  else if 2 ^ 31 ≤ a then a else b

/-- The greater in FP32. -/
def fMax (a b : Nat) : Nat :=
  if isNan32 a then (if isNan32 b then 0x7FC00000 else b)
  else if isNan32 b then a
  else if (ofF32 a).lt (ofF32 b) then b
  else if (ofF32 b).lt (ofF32 a) then a
  else if 2 ^ 31 ≤ a then b else a

/-- The lesser and the greater as signed INT32. -/
def iMin (a b : Nat) : Nat := if sgn 32 a ≤ sgn 32 b then a else b
def iMax (a b : Nat) : Nat := if sgn 32 a ≤ sgn 32 b then b else a

/-- An FP32 value moved: a NaN is written canonical (R39, R146). -/
def fMove (int : Bool) (x : Nat) : Nat := if !int && isNan32 x then 0x7FC00000 else x

/-- FP32 to INT32: rounded, clamped, NaN to 0 (R146). -/
def cvtFI (r : Rnd) (x : Nat) : Nat :=
  match ofF32 x with
  | .nan => 0
  | .inf neg => if neg then 2 ^ 31 else 2 ^ 31 - 1
  | .fin neg m e =>
    let q := if 0 ≤ e then m * 2 ^ e.toNat else roundShift r m (-e).toNat
    unsgn 32 (if neg then -(min q (2 ^ 31) : Nat) else (min q (2 ^ 31 - 1) : Nat))

/-- A special function with its flags (R147, R161). -/
def sfuLane (fn : Nat) (x : Nat × Nat × Nat) : Nat × Nat :=
  let r := sfu fn x.1
  (r, arithFlags [x.1] r + (if fn ≠ 0 ∧ (ofF32 x.1).isZero then fDivZero else 0))

/-! ## Reductions (R148) -/

/-- An addition of a reduction, with its flags. -/
def redAdd (int : Bool) (a b : Nat) : Nat × Nat :=
  if int then ((a + b) % 2 ^ 32, 0) else (fAdd a b, arithFlags [a, b] (fAdd a b))

/-- One level of the fixed tree: neighbours added, a missing one passing the other on. -/
def treeLevel (int : Bool) : List (Option Nat) → List (Option Nat) × Nat
  | some a :: some b :: t =>
    let r := redAdd int a b
    let q := treeLevel int t
    (some r.1 :: q.1, r.2 ||| q.2)
  | some a :: none :: t => let q := treeLevel int t; (some a :: q.1, q.2)
  | none :: b :: t => let q := treeLevel int t; (b :: q.1, q.2)
  | t => (t, 0)

/-- The tree of `n` levels. -/
def treeSum (int : Bool) : Nat → List (Option Nat) → Nat → Option Nat × Nat
  | 0, xs, fl => (xs.head?.getD none, fl)
  | n + 1, xs, fl => treeSum int n (treeLevel int xs).1 (fl ||| (treeLevel int xs).2)

/-- Running sums in ascending order, with flags. -/
def runSums (int : Bool) : Option Nat → List Nat → List Nat × Nat
  | _, [] => ([], 0)
  | acc, x :: xs =>
    let r := match acc with | none => (x, 0) | some a => redAdd int a x
    let q := runSums int (some r.1) xs
    (r.1 :: q.1, r.2 ||| q.2)

/-- The active lanes of an operand, others none. -/
def laneOpts (act : BitVec 512) (xs : List Word) : List (Option Nat) :=
  xs.mapIdx (fun i x => if act.getLsbD i then some x.toNat else none)

/-- Values of the active lanes put back in their lanes. -/
def scatterBack (act : BitVec 512) : Nat → List Word → List Nat → List Word
  | _, [], _ => []
  | i, x :: xs, ys =>
    if act.getLsbD i then
      match ys with
      | y :: ys => BitVec.ofNat 32 y :: scatterBack act (i + 1) xs ys
      | [] => x :: scatterBack act (i + 1) xs []
    else x :: scatterBack act (i + 1) xs ys

end Sys2Proof.Machine
end

