-- ==== Sys2Proof/Machine/VecRun.lean ====
section
/-!
DEFINITION. VECTOR_RUN (R159, R161, R242) and MOE_ROUTE (R130 to R134, R304, R337).
-/
namespace Sys2Proof.Machine

/-! ## VECTOR_RUN -/

/-- The programs a core's instruction store keeps, least recently used first, with one more: those that no longer fit in
64 KiB leave (R159). -/
def evictInsns (size : Nat → Nat) : Nat → List Nat → List Nat
  | 0, l => l
  | fuel + 1, l =>
    if 65536 < (l.map size).foldl (· + ·) 0 ∧ 1 < l.length then evictInsns size fuel (l.drop 1) else l

/-- A program brought into a core's instruction store; a copy counts as VEC_PROG_MISS (R159, R162). -/
def State.loadInsns (s : State) (p core h : Nat) : State :=
  let size := fun h => alignUp ((s.part p).progs.get (fun _ => {}) h).image.length 64
  let old := (s.core core).insns
  let s := if old.contains h then s else s.count core 0x35 1
  s.updCore core fun k => { k with insns := evictInsns size (old.length + 1) (old.filter (· != h) ++ [h]) }

/-- The parameters of a run: 64-bit words of its block (R301). -/
def Cmd.params (c : Cmd) : List Nat :=
  (List.range (c.f 40 0 32 / 8)).map (fun i => num (c.block.getD []) (8 * i) 8)

/-- The initial state of a core's run (R159). -/
def State.beginRun (s : State) (c : Cmd) (n rank core : Nat) : State :=
  let h := c.f 48 0 8
  let x : Tbl (BitVec 64) := ([(14, n), (15, rank)] ++ c.params.mapIdx (fun i v => (16 + i, v))).foldl
    (fun (t : Tbl (BitVec 64)) (e : Nat × Nat) => t.set (fun _ => 0) e.1 (BitVec.ofNat 64 e.2)) []
  let s := (s.touch c.id core).loadInsns c.part core h
  let s := s.updCore core fun k => { k with v := [], m := [], x, run := some { cmd := c.id, handle := h } }
  s.setReg (Reg.vecStatus core) (BitVec.ofNat 32 (2 ^ 13 + h * 2 ^ 16))

/-- The named cores on which a VECTOR_RUN may begin now: their engine is free (R159) and the range rules hold there (R233). -/
def State.runReady (s : State) (c : Cmd) (cores : List Nat) : List Nat :=
  cores.filter (fun k => !c.traced.contains k && s.vecTurn c [k] && !s.coreHeld c k)

/-- VECTOR_RUN (R159, R161): the checks of R161; then core by core, as each is free, the invalidation of an acquiring wait (R242)
and the program at PC 0. -/
def vectorRun (s : State) (c : Cmd) : Res :=
  let mask := c.f 44 0 32
  let cores := ones mask 32
  if c.phase = .started ∧ ((s.part c.part).progs.get (fun _ => {}) (c.f 48 0 8)).image.isEmpty then .done s 0x0119 0 none
  else if c.phase = .started ∧ (mask = 0 ∨ cores.any (fun k => !(s.coresOf c.part).contains k)) then .done s 0x0911 0 none
  else if c.phase = .started ∧ cores.any (fun k => s.fld (Reg.vecFault k) 0 1 == 1) then .done s 0x0821 0 none
  else
    let ready := s.runReady c cores
    let r := if c.waitInvalidate then s.sweepCores c.part (fun _ => { write := true, keep := false }) ready else (s, none)
    match r with
    | (s1, some e) => .fail ((s1.runCores c.id).foldl (fun s k => s.endVRun k) s1) e
    | (s1, none) =>
      let s2 := cores.zipIdx.foldl (fun s k => if ready.contains k.1 then s.beginRun c cores.length k.2 k.1 else s) s1
      .more (if ready.isEmpty then s2 else s2.updCmd c.id fun c => { c with phase := .running })

/-- VECTOR_RUN (R159). -/
def execVectorRun (cmd : Nat) (s : State) : Answer := .next (runCmd s cmd [0x22] vectorRun)

/-! ## MOE_ROUTE -/

/-- The FP32 sum in the order listed (R131). -/
def fSum (xs : List Nat) : Nat := match xs with
  | [] => 0
  | x :: xs => xs.foldl fAdd x

/-- A softmax in FP32 (R131). Whether the largest term is subtracted first is a constant of Config (log entry 11). -/
def softmax (xs : List Nat) : List Nat :=
  let m := xs.foldl fMax 0xFF800000
  let es := xs.map (fun x => fExp (if Config.softmaxShift then fSub x m else x))
  let t := fSum es
  es.map (fun e => fDiv e t)

/-- The logistic function (R131). -/
def sigmoid (x : Nat) : Nat := fDiv 0x3F800000 (fAdd 0x3F800000 (fExp (toF32 (ofF32 x).neg)))

/-- Whether score `a` ranks above score `b` (R132). A NaN score, which R132 does not order, ranks by a constant of Config. -/
def ranksAbove (a b : Nat) : Bool :=
  if isNan32 a then Config.nanRanksHigh && !isNan32 b
  else if isNan32 b then !Config.nanRanksHigh
  else (ofF32 b).lt (ofF32 a)

/-- An expert put behind every expert that ranks at or above it. -/
def rankInsert (x : Nat × Nat) : List (Nat × Nat) → List (Nat × Nat)
  | [] => [x]
  | y :: ys => if ranksAbove x.2 y.2 then x :: y :: ys else y :: rankInsert x ys

/-- The k experts of the highest scores, equal scores to the lower number (R132). -/
def topK (k : Nat) (scores : List Nat) : List Nat :=
  ((scores.zipIdx.foldl (fun l x => rankInsert (x.2, x.1) l) []).take k).map (·.1)

/-- The experts of a token in rank order with their gate weights (R131, R132). -/
def route (gate k : Nat) (renorm : Bool) (bias : Option (List Nat)) (logits : List Nat) : List (Nat × Nat) :=
  let p := match gate with
    | 0 => softmax logits
    | 1 => logits
    | _ => logits.map sigmoid
  let scores := match bias with
    | some b => (p.zip b).map (fun x => fAdd x.1 x.2)
    | none => p
  let sel := topK k scores
  let asc := sel.mergeSort (fun a b => decide (a ≤ b))
  let ws := asc.map (fun e => p.getD e 0)
  let gs := if gate = 1 then softmax ws
    else if renorm then ws.map (fun w => fDiv w (fSum ws))
    else ws
  sel.map (fun e => (e, ((asc.zip gs).find? (fun x => x.1 == e)).elim 0 (·.2)))

/-- An assignment (R134): token, rank, expert, gate weight, and DROP. -/
structure Assign where
  token  : Nat
  rank   : Nat
  expert : Nat
  gate   : Nat
  drop   : Nat
  deriving DecidableEq, Repr

/-- Assignments kept up to CAP in ascending token order (R133); `kept` is the count of each expert so far. -/
def capAssigns (cap : Nat) : Tbl Nat → List Assign → List Assign
  | _, [] => []
  | kept, x :: xs =>
    if x.drop ≠ 0 then x :: capAssigns cap kept xs
    else if cap ≠ 0 ∧ cap ≤ kept.get (fun _ => 0) x.expert then { x with drop := 1 } :: capAssigns cap kept xs
    else x :: capAssigns cap (kept.upd (fun _ => 0) x.expert (· + 1)) xs

/-- The assignments of a token: k dropped ones where a logit is NaN (R132). -/
def tokenAssigns (gate k : Nat) (renorm : Bool) (bias : Option (List Nat)) (t : Nat) (logits : List Nat) : List Assign :=
  if logits.any isNan32 then (List.range k).map (fun r => ⟨t, r, 0x1FF, 0, 2⟩)
  else (route gate k renorm bias logits).mapIdx (fun r x => ⟨t, r, x.1, x.2, 0⟩)

/-- The kept assignments, expert by expert in ascending token order (R134). -/
def tokenList (e : Nat) (xs : List Assign) : List Assign :=
  (List.range e).flatMap (fun i => xs.filter (fun x => x.drop == 0 && x.expert == i))

/-- The exclusive prefix sums of a list, and its total (R134). -/
def prefixSums (acc : Nat) : List Nat → List Nat
  | [] => [acc]
  | x :: xs => acc :: prefixSums (acc + x) xs

/-- The four arrays of R134: COUNTS, OFFSETS, TOKEN_LIST, ASSIGN. -/
def moeArrays (e : Nat) (xs : List Assign) : List Byte × List Byte × List Byte × List Byte :=
  let list := tokenList e xs
  let counts := (List.range e).map (fun i => (list.filter (fun x => x.expert == i)).length)
  let pos := fun (x : Assign) => if x.drop ≠ 0 then 0xFFFFFFFF else (list.findIdx (fun y => y == x))
  (counts.flatMap (leBytes 4), (prefixSums 0 counts).flatMap (leBytes 4),
    list.flatMap (fun x => leBytes 3 x.token ++ leBytes 1 x.rank ++ leBytes 4 x.gate),
    xs.flatMap (fun x => leBytes 4 (pos x) ++ leBytes 2 x.expert ++ leBytes 2 x.drop))

/-- The four arrays written in order (R134). -/
def State.writeAll (s : State) (a : Acc) : List (Nat × List Byte) → State × Option AccErr
  | [] => (s, none)
  | w :: ws => match s.writeDva a w.1 w.2 with
    | (s1, some e) => (s1, some e)
    | (s1, none) => s1.writeAll a ws

/-- Written ranges invalidated in the caches of the cores that wrote them (R226). -/
def State.dropWritten (s : State) (a : Acc) (cores : List Nat) (ws : List (Nat × Nat)) : State :=
  let units := ws.flatMap (fun w => s.unitsOf a w.1 w.2)
  cores.foldl (fun s k => s.updCore k fun x => { x with cache := x.cache.filter (fun l => !units.contains l.unit) }) s

/-- The engines of a MOE_ROUTE: the named ones in service, else the partition's others (R299, R337). -/
def State.moeCores (s : State) (c : Cmd) : List Nat :=
  let ok := fun k => s.fld (Reg.vecFault k) 0 1 == 0
  let named := (s.coreMask c.part (c.f 44 0 32)).filter ok
  if named.isEmpty then (s.coresOf c.part).filter ok else named

/-- The routing itself (R130 to R134). -/
def State.moeRun (s : State) (c : Cmd) (a : Acc) (cores : List Nat) (t : Tensor) : Res :=
  let b := c.block.getD []
  let core := cores.headD 0
  let bias := if num b 32 8 = 0 then .ok none else (s.readDva a (num b 32 8) (4 * t.cols)).map some
  match s.readTensor a t, bias with
  | .error e, _ => e.res s core
  | _, .error e => .fail s e
  | .ok rows, .ok bias =>
    let k := num b 72 1
    let g := num b 73 1
    let all := rows.zipIdx.flatMap (fun (row, i) =>
      tokenAssigns (g % 4) k (bitB g 2) (bias.map (unpack 32 t.cols)) i (row.map toF32))
    let xs := capAssigns (num b 76 4) [] all
    let arr := moeArrays t.cols xs
    let ws := [(num b 40 8, arr.1), (num b 48 8, arr.2.1), (num b 56 8, arr.2.2.1), (num b 64 8, arr.2.2.2)]
    match s.writeAll a ws with
    | (s1, some e) => .fail s1 e
    | (s1, none) =>
      let n := (xs.filter (fun x => x.drop ≠ 0)).length
      let s2 := (s1.dropWritten a cores (ws.map (fun w => (w.1, w.2.length)))).count core 0x28 n
      if n = 0 then .done s2 0 0 none else .done s2 0x0003 (min n 0xFFFFFF) none

/-- What a spoiled MOE_ROUTE leaves of its four arrays: free bytes. -/
def State.moeSpoil (s : State) (c : Cmd) (a : Acc) (t : Tensor) : State :=
  let b := c.block.getD []
  let k := num b 72 1
  [(num b 40 8, 4 * t.cols), (num b 48 8, 4 * (t.cols + 1)), (num b 56 8, 8 * t.rows * k), (num b 64 8, 8 * t.rows * k)].foldl
    (fun s w => s.fillFree a (.dva w.1) w.2) s

/-- MOE_ROUTE's checks (R41, R106, R130, R131, R134, R285, R298, R337; their order is log entry 29), then the routing once its
engines are free (R159), under their own check (R153, R335). -/
def moeRoute (chk : Check) (s : State) (c : Cmd) : Res :=
  let b := c.block.getD []
  let ptrs := [num b 40 8, num b 48 8, num b 56 8, num b 64 8]
  let k := num b 72 1
  if num b 73 1 / 8 ≠ 0 ∨ num b 74 2 ≠ 0 ∨ num b 80 16 ≠ 0 then .done s 0x0103 0 none
  else match s.parseTensor c.part b 0 false with
    | .error st => .done s st 0 none
    | .ok t =>
      if num b 73 1 % 4 = 3 then .done s 0x0110 0 none
      else if 1 < t.elem ∨ 2 ^ 24 < t.rows ∨ 512 < t.cols ∨ k = 0 ∨ 8 < k ∨ t.cols < k then .done s 0x0116 0 none
      else if t.packed then .done s 0x0607 0 none
      else if ptrs.any (fun x => x % 64 != 0 || !dvaOk x) || !dvaOk (num b 32 8) || num b 32 8 % 4 != 0 then .done s 0x0104 0 none
      else if (s.coreMask c.part (c.f 44 0 32)).any (fun x => !(s.coresOf c.part).contains x) then .done s 0x0911 0 none
      else
        let cores := s.moeCores c
        let core := cores.headD 0
        let a := s.accOf c core false
        if cores.isEmpty then .done s 0x0821 0 none
        else if !s.vecTurn c cores then .more s
        else checked (cores.foldl (fun s x => s.touch c.id x) s) c core chk (fun s => s.moeSpoil c a t)
          (fun s => s.moeRun c a cores t)

/-- MOE_ROUTE (R130). -/
def execMoeRoute (cmd : Nat) (chk : Check) (s : State) : Answer := .next (runCmd s cmd [0x24] (moeRoute chk))

end Sys2Proof.Machine
end

