-- ==== Sys2Proof/Machine/Debug.lean ====
section
/-!
DEFINITION. Event counters (R440 to R447), trace rings (R448 to R452), the observation share (R453) and tensor watch
(R454 to R456).
-/
namespace Sys2Proof.Machine

/-! ## Counters -/

/-- The event codes of R441, and which of them take a qualifier. -/
def eventCodes : List Nat :=
  [0x00, 0x01, 0x02] ++ (List.range 11).map (0x10 + ·) ++ (List.range 9).map (0x20 + ·) ++ (List.range 8).map (0x30 + ·) ++
    (List.range 9).map (0x40 + ·) ++ (List.range 10).map (0x50 + ·) ++ (List.range 8).map (0x60 + ·) ++
    (List.range 7).map (0x70 + ·) ++ [0x80, 0x81]
def qualified (ev : Nat) : Bool := ev == 0x01 || ev == 0x02 || (0x70 ≤ ev && ev ≤ 0x76)

/-- The level events (R101, R137, R162, R201, R230, R281, R390, R441). -/
def levelEvents : List Nat :=
  [0x00, 0x12, 0x13, 0x14, 0x1A, 0x23, 0x25, 0x31, 0x32, 0x33, 0x34, 0x37, 0x47, 0x54, 0x59, 0x66, 0x67, 0x74, 0x75, 0x81]

/-- The bits of a configuration word that hold a field (R459). -/
def cfgMask : Nat := 0xFF0FFF

/-- Whether a configuration word is valid for counter `k` (R441, R443). -/
def cfgOk (k w : Nat) : Bool :=
  eventCodes.contains (bits w 0 8) && (bits w 16 8 == 0 || qualified (bits w 0 8)) && (bits w 10 1 == 0 || k % 2 == 1)

/-- A counter's configuration word stored; the counter keeps its value (R444). -/
def State.setCfg (s : State) (core k w : Nat) : State := s.setReg (Reg.ctrCfg core k) (BitVec.ofNat 32 (w &&& cfgMask))

/-- A counter's captures dropped once software writes it (R444). -/
def State.dropCapture (s : State) (core k : Nat) : State :=
  s.updCore core fun x => { x with caps := (x.caps.set (fun _ => 0) (2 * k) 0).set (fun _ => 0) (2 * k + 1) 0 }

/-- A counter set to 0 with its OVF (R447). -/
def State.clearCtr (s : State) (core k : Nat) : State :=
  ((s.setReg (Reg.ctrLo core k) 0).setReg (Reg.ctrHi core k) 0).dropCapture core k

/-- COUNTER_CONFIG (R447): every selected word in every named core, or nothing. -/
def counterConfig (s : State) (c : Cmd) : Res :=
  let b := c.block.getD []
  let sel := ones (num b 4 2) 16
  let word := fun k => num b (64 + 4 * k) 4
  let cores := s.coreMask c.part (num b 0 4)
  if num b 6 1 / 2 ≠ 0 ∨ num b 7 57 ≠ 0 then .done s 0x0103 0 none
  else if cores.any (fun k => !(s.coresOf c.part).contains k) then .done s 0x0911 0 none
  else if sel.any (fun k => !cfgOk k (word k)) then .done s 0x0104 0 none
  else .done (cores.foldl (fun s core => sel.foldl (fun s k =>
      let s := s.setCfg core k (word k)
      if bitB (num b 6 1) 0 then s.clearCtr core k else s) s) s) 0 0 none

/-- COUNTER_CONFIG (R447). -/
def execCounterConfig (cmd : Nat) (s : State) : Answer := .next (runCmd s cmd [0x89] counterConfig)

/-- COUNTER_CFG_WRITE (R441): a rejected word stores nothing. -/
def execCounterCfgWrite (fn core k : Nat) (val : BitVec 32) (s : State) : Answer :=
  if 24 ≤ core ∨ 16 ≤ k then .next s
  else regWriteRow s fn (Reg.ctrCfg core k) (if cfgOk k val.toNat then s.setCfg core k val.toNat else s)

/-- Whether a counter counts a level event by its condition's cycles or beginnings (R440, R442). -/
def State.countsLevel (s : State) (core k : Nat) : Bool :=
  (s.coreOwner core).isSome && s.fld (Reg.ctrCfg core k) 11 1 == 1 && s.fld (Reg.ctrCfg core k) 8 2 != 3 &&
    levelEvents.contains (s.fld (Reg.ctrCfg core k) 0 8) && !s.chained core k

/-- COUNTER_WRAP (R443): a counter of a level event passes 2⁴⁸ − 1. -/
def execCounterWrap (core k : Nat) (s : State) : Answer :=
  if 24 ≤ core ∨ 16 ≤ k then .next s
  else
    let r := (s.setCtr core k (2 ^ 48 - 1)).ctrAdd core k 1
    when (s.active && s.countsLevel core k) s (r.1.ovfTrigger core r.2)

/-! ## Trace rings -/

/-- The fields of a TRACE_CONFIG block (R448). -/
def traceOf (b : List Byte) (asid : Nat) : Trace :=
  let mib := if num b 8 4 = 0 then 64 else num b 8 4
  let slots := (mib * 2 ^ 20 - 4096) / 32
  let mode := num b 12 1
  { asid, ring := num b 0 8, slots, mode, pre := if mode = 3 then slots * num b 13 1 / 16 / 2 * 2 else 0,
    trigger := num b 14 1, trigCore := num b 15 1, trigStat := num b 16 2, trigOp := num b 18 1, trigCtr := num b 19 1,
    types := num b 20 1, engines := num b 22 2 }

/-- Whether the reserved bits of a TRACE_CONFIG block are 0. -/
def traceReservedOk (b : List Byte) : Bool :=
  num b 13 1 < 16 && num b 14 1 < 8 && num b 15 1 < 32 && num b 19 1 < 16 && num b 20 1 < 4 && num b 21 1 == 0 &&
    num b 24 40 == 0

/-- Whether the fields of a TRACE_CONFIG block are within R448. -/
def traceFieldsOk (b : List Byte) : Bool :=
  let mib := num b 8 4
  let mode := num b 12 1
  mode < 4 && (mode == 0 || (num b 0 8 % 4096 == 0 && dvaOk (num b 0 8) &&
    (mib == 0 || (mib ≤ 4096 && 2 ^ Nat.log2 mib == mib)))) &&
    (mode != 3 || (num b 13 1 != 0 && num b 14 1 < 5))

/-- The first page of a ring that fails translation or meets a sealed range (R448). -/
def State.ringFault (s : State) (a : Acc) (ring pages : Nat) : Option AccErr :=
  (List.range pages).findSome? (fun i => match s.translate a (ring + 4096 * i) 4096 true with
    | .error e => some e
    | .ok _ => none)

/-- TRACE_CONFIG (R448): the current trace stops, and a new one starts from index 0. -/
def traceConfig (s : State) (c : Cmd) : Res :=
  let b := c.block.getD []
  let tr := traceOf b c.asid
  let s := s.outerBegin c
  let s1 := (s.updPart c.part fun x => { x with trace := {} }).setFld (Reg.traceStatus c.part) 0 3 0
  if !traceReservedOk b then .done s 0x0103 0 none
  else if !traceFieldsOk b then .done s 0x0104 0 none
  else if tr.mode = 3 ∧ tr.trigger = 3 ∧ !(s.coresOf c.part).contains tr.trigCore then .done s 0x0911 0 none
  else if tr.mode = 0 then .done s1 0 0 none
  else match s.ringFault (s.accOf c 31 false) tr.ring ((tr.slots * 32 + 4096) / 4096) with
    | some e => .fail s1 e
    | none => .done ((s1.updPart c.part fun x => { x with trace := tr }).setFld (Reg.traceStatus c.part) 0 3 tr.mode) 0 0 none

/-- TRACE_CONFIG (R448). -/
def execTraceConfig (cmd : Nat) (s : State) : Answer := .next (runCmd s cmd [0x8A] traceConfig)

/-- FIRE (R451): a write of 1 triggers a trace whose trigger it is. -/
def execFire (fn part : Nat) (val : BitVec 32) (s : State) : Answer :=
  if 8 ≤ part then .next s
  else regWriteRow s fn (Reg.traceStatus part + 0x10)
    (if bitB val.toNat 0 ∧ (s.part part).trace.trigger = 0 then s.traceFire part 0 0 0 0 else s)

/-- TRACE_HEADER_TIMER (R449): the ring header is written. -/
def execTraceHeaderTimer (part t : Nat) (s : State) : Answer :=
  if 8 ≤ part then .next s
  else when (s.active && s.traceState part != 0) s ((s.atTime t).traceHeader part)

/-- Whether the last staged record has stood alone for 1 µs (R450). -/
def State.aloneSince (s : State) (p t : Nat) : Bool :=
  let st := (s.part p).trace.staged
  match st.getLast? with
  | some (_, r) => st.length % 2 == 1 && num r 16 8 + 1000 ≤ t
  | none => false

/-- TRACE_NULL_TIMER (R450): a NULL record completes the chunk. -/
def execTraceNullTimer (part t : Nat) (s : State) : Answer :=
  if 8 ≤ part then .next s
  else
    let s1 := s.atTime t
    when (s.active && s.tracing part && s1.aloneSince part s1.now) s
      ((s1.stage part (traceBytes 0 0 0 0 0 0 0 s1.now 0 0)).traceFlush part 64)

/-- OBSERVATION_WINDOW (R453): the share of every stack is renewed, and traffic that waited goes on. DEFER_US gains the
microseconds it waited. -/
def execObservationWindow (part t : Nat) (s : State) : Answer :=
  if 8 ≤ part then .next s
  else
    let s1 := s.atTime t
    let s2 := match (s.part part).obsHeld with
      | some since => s1.bump (Reg.obsDefer part) 0 32 (ceilDiv (s1.now - since) 1000)
      | none => s1
    let s3 := s2.updPart part fun x => { x with obsUsed := [], obsHeld := none }
    when s.active s (if s3.configured part && s3.traceState part != 0 then s3.traceFlush part 64 else s3)

/-! ## Tensor watch -/

/-- Whether the fields of a TENSOR_WATCH block are within R454. -/
def watchFieldsOk (b : List Byte) : Bool :=
  let n := num b 8 8
  num b 52 1 < 8 && 64 ≤ n && n ≤ 2 ^ 40 && n % 64 == 0 && num b 24 8 % 64 == 0 && num b 40 8 % 64 == 0 &&
    (num b 32 8 == 0 || n ≤ num b 32 8) && dvaOk (num b 0 8) && dvaOk (num b 24 8) && dvaOk (num b 40 8)

/-- TENSOR_WATCH (R454): a slot armed. -/
def tensorWatch (s : State) (c : Cmd) : Res :=
  let b := c.block.getD []
  let slot := num b 52 1
  let w : Watch := { addr := num b 0 8, bytes := num b 8 8, step := num b 16 8, dump := num b 24 8, dumpN := num b 32 8,
                     record := num b 40 8, fence := bits (num b 48 4) 0 24, signal := bitB (num b 48 4) 24, asid := c.asid,
                     user := c.cls == 2 }
  if bits (num b 48 4) 25 7 ≠ 0 ∨ num b 53 11 ≠ 0 then .done s 0x0103 0 none
  else if !watchFieldsOk b || (s.part c.part).watches.any (fun x => x.1 == slot) then .done s 0x0104 0 none
  else if w.signal && (s.fenceKey c.part w.fence).isNone then .done s 0x0402 0 none
  else .done ((s.updPart c.part fun x => { x with watches := x.watches ++ [(slot, w)] }).setFld (Reg.watch c.part) slot 1 1)
    0 0 none

/-- TENSOR_WATCH (R454). -/
def execTensorWatch (cmd : Nat) (s : State) : Answer := .next (runCmd s cmd [0x8B] tensorWatch)

/-- The authority of a watch's reads and writes: its queue's. -/
def State.watchAcc (s : State) (p : Nat) (w : Watch) : Acc := { s.obsAcc p w.asid with user := w.user }

/-- Whether a watched extent meets a sealed range (R455). -/
def State.watchSealed (s : State) (p : Nat) (w : Watch) : Bool :=
  let a := { s.watchAcc p w with sealedRd := true }
  (piecesOf w.addr w.bytes).any (fun pc => match s.translate a pc.1 pc.2 false with
    | .ok (.hbm _ ppa, _) => s.sealedHit p ppa pc.2
    | _ => false)

/-- The destination descriptor of a producer, where it has one (R301 to R305, R455). -/
def Cmd.destAt (c : Cmd) : Option Nat :=
  if c.op = 0x11 ∨ c.op = 0x23 then some 32
  else if c.op = 0x20 ∨ c.op = 0x21 then some 64
  else if c.op = 0x25 ∨ c.op = 0x26 then some 48
  else none

/-- The values of a destination's elements that lie in its first `n` bytes, row by row (R456). -/
def extentVals (t : Tensor) (n : Nat) (rows : List (List Val)) : List Val :=
  rows.zipIdx.flatMap (fun (r, m) =>
    (r.zipIdx.filter (fun (_, k) => m * t.stride + ceilDiv ((k + 1) * elemBits t.elem) 8 ≤ n)).map (·.1))

/-- MIN, MAX, MEAN, NAN_COUNT and INF_COUNT of a watch record (R456), 20 bytes. -/
def watchStats (vs : List Val) : List Byte :=
  let fin := (vs.filter Val.isFin).map toF32
  let mean := if fin.isEmpty then 0 else fMul (fSum fin) (sfu 2 (toF32 (.fin false fin.length 0)))
  let infs := (vs.filter (fun v => !v.isFin && v != .nan)).length
  leBytes 4 (fin.foldl fMin 0x7F800000) ++ leBytes 4 (fin.foldl fMax 0xFF800000) ++ leBytes 4 mean ++
    leBytes 4 (vs.filter (· == .nan)).length ++ leBytes 4 infs

/-- The first 24 bytes of a watch record (R456). -/
def watchHead (flags slot fmt time : Nat) (c : Cmd) : List Byte :=
  leBytes 2 6 ++ leBytes 1 flags ++ leBytes 1 slot ++ leBytes 4 c.queue ++ leBytes 4 c.seq.toNat ++ leBytes 1 c.op ++
    leBytes 1 0 ++ leBytes 2 fmt ++ leBytes 8 time

/-- The record of a sealed extent: the identification fields alone (R455). -/
def sealedRecord (slot time : Nat) (c : Cmd) : List Byte := watchHead 4 slot 0 time c ++ leBytes 40 0

/-- The record of a watched producer (R456). `data` are the extent's bytes; a part that cannot be read is left open, and so
are then the digest and the statistics (log entry 7). -/
def State.watchBytes (s : State) (c : Cmd) (w : Watch) (slot : Nat) (dumped : Bool) (data : Option (List Byte)) :
    List Byte :=
  let a := s.watchAcc c.part w
  let free := (List.range 40).map (Config.freeByte s.free)
  let digest := match data with | some bs => padTo 16 (shake256 bs 16) | none => free.take 16
  match c.destAt with
  | none => watchHead (b2n dumped + 8) slot 0 s.now c ++ digest ++ leBytes 24 0
  | some o =>
    match s.parseTensor c.part (c.block.getD []) o true with
    | .error _ => watchHead (b2n dumped) slot (num (c.block.getD []) (o + 28) 2) s.now c ++ digest ++ (free.drop 16).take 20 ++
        leBytes 4 0
    | .ok t =>
      let stats := match data, s.readTensor a t with
        | some _, .ok rows => watchStats (extentVals t w.bytes rows)
        | _, _ => (free.drop 16).take 20
      watchHead (b2n dumped) slot t.word s.now c ++ digest ++ stats ++ leBytes 4 0

/-- A watch's fence signalled by ADD 1 (R454, R288); a poisoned fence word is recorded instead (R343). -/
def State.watchSignal (s : State) (c : Cmd) (w : Watch) : State :=
  match (if w.signal then s.fenceKey c.part w.fence else none) with
  | none => s
  | some k => if s.fencePoisoned k then s.logFence k c else s.setFence k (s.fence k + 1)

/-- A slot freed, its FIRED bit set (R455, R459). -/
def State.freeWatch (s : State) (p slot : Nat) : State :=
  ((s.updPart p fun x => { x with watches := x.watches.filter (fun v => v.1 != slot) }).setFld (Reg.watch p) slot 1 0).setFld
    (Reg.watch p) (8 + slot) 1 1

/-- Whether a watch has a dump buffer (R454). -/
def Watch.dumps (w : Watch) : Bool := w.dump != 0 && w.dumpN != 0

/-- A watch acts on its producer (R455): read, dump, record, signal, and the slot is free. -/
def State.watchAct (s : State) (c : Cmd) (w : Watch) (slot : Nat) : State :=
  let a := s.watchAcc c.part w
  if s.watchSealed c.part w then
    (((s.writeDva a w.record (sealedRecord slot s.now c)).1).watchSignal c w).freeWatch c.part slot
  else
    let data := match s.readDva a w.addr w.bytes with | .ok bs => some bs | .error _ => none
    let d := if !w.dumps then (s, true) else match data with
      | some bs => ((s.writeDva a w.dump bs).1, (s.writeDva a w.dump bs).2.isNone)
      | none => (s.fillFree a (.dva w.dump) w.bytes, true)
    let rec_ := s.watchBytes c w slot (w.dumps && d.2) data
    (((d.1.writeDva a w.record rec_).1.draw).watchSignal c w).freeWatch c.part slot

/-- WATCH_RECORD (R455): a watch of a producer that waits for it acts; after its last watch the producer is released. -/
def execWatchRecord (part slot : Nat) (s : State) : Answer :=
  if 8 ≤ part ∨ 8 ≤ slot then .next s
  else match s.fe.cmds.find? (fun c => c.part == part && c.phase == .watched && c.watching.contains slot),
      (s.part part).watches.find? (fun w => w.1 == slot) with
    | some c, some (_, w) =>
      let s1 := (s.watchAct c w slot).updCmd c.id fun c => { c with watching := c.watching.filter (· != slot) }
      let s2 := match s1.cmd? c.id with
        | some c' => if c'.watching.isEmpty then s1.complete c' c'.status c'.detail else s1
        | none => s1
      when (s.active && c.epoch == s.epoch part) s s2
    | _, _ => .next s

/-- A watch whose STEP has passed (R455): a record with MISSED alone, its fence signalled, its slot free. -/
def State.watchMissed (s : State) (c : Cmd) (slot : Nat) (w : Watch) : State :=
  let r := leBytes 2 6 ++ leBytes 1 2 ++ leBytes 1 slot ++ leBytes 60 0
  (((s.writeDva (s.watchAcc c.part w) w.record r).1).watchSignal c w).freeWatch c.part slot

/-- The watches that a new step number leaves behind (R455), but for those that a producer already fires. -/
def State.missWatches (s : State) (c : Cmd) (step : Nat) : State :=
  let firing := s.fe.cmds.flatMap (fun d => if d.part = c.part ∧ d.phase = .watched then d.watching else [])
  ((s.part c.part).watches.filter (fun w => decide (w.2.step < step) && !firing.contains w.1)).foldl
    (fun s w => s.watchMissed c w.1 w.2) s

end Sys2Proof.Machine
end

