-- ==== Sys2Proof/Machine/Fabric.lean ====
section
/-!
DEFINITION. The matrix fabric: the block of a fabric command and its limits (R71 to R73, R104, R302), tiles and the dispenser
(R90 to R94), operand windows with 2:4 weights, bitmaps and re-blocking (R54, R95 to R99), exact group sums, rescaling and FP32
accumulation (R55 to R60, R83).
-/
namespace Sys2Proof.Machine

/-! ## The block of a fabric command -/

/-- The parameters of FABRIC_MATMUL and GROUPED_MATMUL (R302). `w` is the stored data plane: for 2:4 weights its COLS are
K ÷ 2 (R95). -/
structure FabArgs where
  a       : Tensor
  w       : Tensor
  d       : Tensor
  grouped : Bool
  metaAt  : Nat
  bitmap  : Nat
  tileM   : Nat
  order   : Nat
  rnd     : Rnd
  ieee    : Bool
  offsets : Nat
  tokens  : Nat
  experts : Nat
  cap     : Nat
  gate    : Bool
  wStep   : Nat
  sStep   : Nat
  mStep   : Nat
  bStep   : Nat
  deriving DecidableEq, Repr

def FabArgs.m (x : FabArgs) : Nat := x.a.rows
def FabArgs.k (x : FabArgs) : Nat := x.a.cols
def FabArgs.n (x : FabArgs) : Nat := x.w.rows
def FabArgs.sparse (x : FabArgs) : Bool := x.metaAt != 0

/-- Whether a format code is a 16-bit format, or a 4-bit one. -/
def is16 (code : Nat) : Bool := code == 1 || code == 2
def is4 (code : Nat) : Bool := code == 7 || code == 9

/-- The cell mode of an operand pair (R71). -/
def cellMode (a w : Nat) : Nat := if is16 a || is16 w then 16 else if is4 a && is4 w then 4 else 8

def FabArgs.mode (x : FabArgs) : Nat := cellMode x.a.elem x.w.elem
/-- Logical products along one stationary tile (R71). -/
def FabArgs.kt (x : FabArgs) : Nat :=
  (if x.mode = 4 then 256 else if x.mode = 16 then 64 else 128) * (if x.sparse then 2 else 1)
/-- The weight group size (R50, R55, R73). -/
def FabArgs.wGroup (x : FabArgs) : Nat :=
  if x.w.group = 3 then (if is16 x.w.elem then 64 else 128) else 32 * 2 ^ x.w.group
/-- The format of weight group scales: none for GROUP 3 (R62). -/
def FabArgs.wScale (x : FabArgs) : Nat := if x.w.group = 3 then 0 else x.w.sf
/-- The length of a reduction group (R55). -/
def FabArgs.group (x : FabArgs) : Nat := if x.a.sf = 0 then x.wGroup else min x.wGroup x.a.block
/-- Stationary tiles along the reduction. -/
def FabArgs.kTiles (x : FabArgs) : Nat := ceilDiv x.k x.kt
/-- Column blocks. -/
def FabArgs.nTiles (x : FabArgs) : Nat := ceilDiv x.n 128

/-- Whether the reserved bits of a fabric block are 0 (R285, R302). -/
def fabReservedOk (b : List Byte) (grouped : Bool) : Bool :=
  num b 116 1 / 2 == 0 && num b 117 1 / 8 == 0 && num b 118 10 == 0 && (!grouped || (num b 152 1 / 2 == 0 && num b 153 7 == 0))

/-- The limits of R104 with R41, R55, R72, R73, R98, R105, R106 and R302: the first that a block breaks, or 0. Only weights are
never compressed (R105); a compressed D is stored under R124. A META or BITMAP off its 64-byte boundary is 0x0114, as a plane of
R41, and so is a step of the indirect block that would take a plane off it; BITMAP_STEP is free of that, for a bitmap of R98 need
only begin on the boundary that its own expert's offset gives (DESIGN CHOICE, log entry 51). -/
def FabArgs.check (x : FabArgs) (wk : Nat) : Nat :=
  if 16777216 < x.m ∨ 1048576 < x.n ∨ 1048576 < x.k ∨ wk ≠ x.k ∨ x.d.cols ≠ x.n ∨
      (if x.grouped then x.d.rows < x.cap else x.d.rows ≠ x.m) ∨ (x.grouped ∧ (x.experts = 0 ∨ 512 < x.experts)) ∨
      x.tileM % 16 ≠ 0 ∨ 512 < x.tileM ∨ (x.sparse ∧ x.k % 4 ≠ 0) then 0x0116
  else if x.a.elem = 0 ∨ x.w.elem = 0 then 0x0110
  else if x.w.packed ∨ (x.a.packed ∧ !(elemBits x.a.elem == x.mode)) then 0x0607
  else if x.metaAt % 64 ≠ 0 ∨ x.bitmap % 64 ≠ 0 ∨ (x.grouped ∧ (x.wStep % 64 ≠ 0 ∨ x.sStep % 64 ≠ 0 ∨ x.mStep % 64 ≠ 0)) then
    0x0114
  else if !ovfOk x.d.elem x.ieee then 0x0114
  else if x.group < 32 ∨ x.kt % x.group ≠ 0 ∨ (is16 x.w.elem ∧ x.w.group = 2 ∧ !x.sparse) then 0x0113
  else 0

/-- A fabric command's block with the first check it fails. -/
def State.parseFab (s : State) (c : Cmd) : Except Nat FabArgs :=
  let b := c.block.getD []
  let grouped := c.op == 0x21
  let addrs := [num b 96 8, num b 104 8] ++ (if grouped then [num b 128 8, num b 136 8] else [])
  if !fabReservedOk b grouped then .error 0x0103
  else match s.parseTensor c.part b 0 false, s.parseTensor c.part b 32 false (if num b 96 8 = 0 then 1 else 2),
      s.parseTensor c.part b 64 false with
    | .error st, _, _ => .error st
    | _, .error st, _ => .error st
    | _, _, .error st => .error st
    | .ok a, .ok w, .ok d =>
      if addrs.any (fun x => !dvaOk x) then .error 0x0104
      else match rndOf (num b 117 1 % 4) with
        | none => .error 0x0114
        | some rnd =>
          let x : FabArgs :=
            { a, w, d, grouped, metaAt := num b 96 8, bitmap := num b 104 8, tileM := num b 112 4, order := num b 116 1 % 2, rnd,
              ieee := bitB (num b 117 1) 2, offsets := num b 128 8, tokens := num b 136 8,
              experts := if grouped then num b 144 4 else 1, cap := num b 148 4, gate := grouped && bitB (num b 152 1) 0,
              wStep := num b 160 8, sStep := num b 168 8, mStep := num b 176 8, bStep := num b 184 8 }
          match x.check (num b 52 4) with
          | 0 => .ok x
          | st => .error st

/-! ## Tiles -/

/-- TILE_M for a list of `rows` rows (R90). Where TILE_M is 0, a GROUPED_MATMUL takes the rows of each expert's list as its M, since
its tiles are cut expert by expert (R91; DESIGN CHOICE, log entry 55). -/
def FabArgs.tileRows (x : FabArgs) (rows : Nat) : Nat := if x.tileM = 0 then min 512 (alignUp rows 16) else x.tileM
/-- The tiles of one expert (R91). -/
def FabArgs.tilesOf (x : FabArgs) (rows : Nat) : Nat := ceilDiv rows (x.tileRows rows) * x.nTiles

/-- The tile of a number among the experts with rows, in ascending expert order (R91). -/
def FabArgs.tileAt (x : FabArgs) (cmd num : Nat) : List (Nat × Nat × Nat) → Nat → Option Tile
  | [], _ => none
  | (e, first, rows) :: es, i =>
    let k := x.tilesOf rows
    if i < k then
      let tm := x.tileRows rows
      let tmn := ceilDiv rows tm
      let rb := if x.order = 0 then i % tmn else i / x.nTiles
      let cb := if x.order = 0 then i / tmn else i % x.nTiles
      some { cmd, num, expert := e, row := first + rb * tm, rows := min tm (rows - rb * tm), col := cb * 128,
             cols := min 128 (x.n - cb * 128) }
    else x.tileAt cmd num es (i - k)

/-- The stationary tiles that the bitmap marks present in a column block (R98). A sealed range serves this read (R414). -/
def State.presentTiles (s : State) (a : Acc) (x : FabArgs) (e cb : Nat) : Except AccErr (List Nat) :=
  if x.bitmap = 0 then .ok (List.range x.kTiles)
  else
    let first := cb * x.kTiles
    match s.readDva { a with sealedRd := true } (x.bitmap + e * x.bStep + first / 8) ((first + x.kTiles - 1) / 8 - first / 8 + 1) with
    | .error er => .error er
    | .ok b => .ok ((List.range x.kTiles).filter (fun i =>
        bitB ((b[(first + i) / 8 - first / 8]?.getD 0).toNat) ((first + i) % 8)))

/-! ## Operand windows -/

/-- An operand element with the scale that applies at the rescaler (R49, R51): a NaN scale makes NaN elements and a zero
scale zeros, whose scale then counts as 1. -/
def scalePair (sf sc : Nat) (v : Val) : Val × Val :=
  match scaleVal sf sc with
  | .nan => (.nan, .fin false 1 0)
  | .fin _ 0 _ => (.fin false 0 0, .fin false 1 0)
  | x => (v, x)

/-- The element codes `k0` to `k1 - 1` of a row of an activation tensor. -/
def State.windowCodes (s : State) (a : Acc) (t : Tensor) (ct : Option CTensor) (m k0 k1 : Nat) : Except OpErr (List Nat) :=
  let w := elemBits t.elem
  let b0 := k0 * w / 8
  let n := ceilDiv ((k1 - k0) * w) 8
  match ct with
  | none =>
    match s.readLoc a (t.loc.plus (m * t.stride + b0)) n with
    | .error e => .error (.access e)
    | .ok b => .ok (unpack w (k1 - k0) b)
  | some c =>
    let first := b0 / 128
    match s.readBlocks a c ((List.range (ceilDiv n 128)).map (fun i => m * c.perRow + first + i)) with
    | .error e => .error e
    | .ok b => .ok (unpack w (k1 - k0) (b.drop (b0 - first * 128)))

/-- A row of a tensor shared across the reduction, re-blocked along it (R54): each block's scale code, element codes and
flags. -/
def reblocks (t : Tensor) (vs : List Val) : List (Nat × List Nat × Nat) :=
  (chop t.block vs.length vs).map (convBlock t.sf t.elem (if bitB t.word 11 then .rtz else .rne) false)

/-- The flags of a re-blocking (R45, R54). -/
def blockFlags (bs : List (Nat × List Nat × Nat)) : Nat := bs.foldl (fun f b => f ||| b.2.2) 0

/-- A re-blocked row: elements with their new scales, and flags. -/
def reblock (t : Tensor) (vs : List Val) : List (Val × Val) × Nat :=
  let bs := reblocks t vs
  (bs.flatMap (fun x => x.2.1.map (fun code => scalePair t.sf x.1 (elemVal t.elem code))), blockFlags bs)

/-- The elements `k0` to `k1 - 1` of activation row `m` with their scales (R49, R54). -/
def State.actWindow (s : State) (a : Acc) (t : Tensor) (ct : Option CTensor) (m k0 k1 : Nat) :
    Except OpErr (List (Val × Val)) :=
  if t.sf = 0 then
    match s.windowCodes a t ct m k0 k1 with
    | .error e => .error e
    | .ok cs => .ok (cs.map (fun x => (elemVal t.elem x, .fin false 1 0)))
  else if t.across then
    match s.readRow a t ct m with
    | .error e => .error e
    | .ok vs => .ok (((reblock t vs).1.drop k0).take (k1 - k0))
  else
    let first := t.scaleIdx m k0
    match s.readDva a (t.scale + first) (t.scaleIdx m (k1 - 1) - first + 1), s.windowCodes a t ct m k0 k1 with
    | .error e, _ => .error (.access e)
    | _, .error e => .error e
    | .ok sc, .ok cs =>
      if sc.any (fun b => scaleNegative t.sf b.toNat) then .error (.status 0x0112)
      else .ok (cs.mapIdx (fun i x =>
        scalePair t.sf ((sc[t.scaleIdx m (k0 + i) - first]?.getD 0).toNat) (elemVal t.elem x)))

/-- The row stride of a metadata plane: the least multiple of 64 bytes that holds the row. No field gives it, and R95 asks only
for a multiple of 64 (DESIGN CHOICE, log entry 56). -/
def FabArgs.metaStride (x : FabArgs) : Nat := alignUp (ceilDiv (x.k / 4) 2) 64

/-- The metadata entries of channel `n` from reduction index `k0` to `k1 - 1` (R95); 0x0115 for a bad entry (R96). -/
def State.metaEntries (s : State) (a : Acc) (x : FabArgs) (e n k0 k1 : Nat) : Except OpErr (List Nat) :=
  let runs := (k1 - k0) / 4
  match s.readDva { a with sealedRd := true } (x.metaAt + e * x.mStep + n * x.metaStride + k0 / 8) (ceilDiv runs 2) with
  | .error er => .error (.access er)
  | .ok b =>
    let es := unpack 4 runs b
    if es.any (fun m => m / 4 ≤ m % 4) then .error (.status 0x0115) else .ok es

/-- The logical weights of 2:4 runs: each pair of kept values at its indices, and zeros (R95). -/
def expandRuns : List Nat → List Val → List Val
  | [], _ => []
  | m :: ms, vs =>
    (List.range 4).map (fun i =>
      if i = m % 4 then vs.getD 0 .nan else if i = m / 4 then vs.getD 1 .nan else .fin false 0 0) ++ expandRuns ms (vs.drop 2)

/-- The format of the scale register file's entries (R62): E8M0 where no group scale applies. -/
def FabArgs.srfFmt (x : FabArgs) : Nat := if x.wScale = 0 then 1 else x.wScale

/-- Where the group scale of weight `(n, k)` sits in its scale plane (R52). The rows of a 2:4 tensor's scale plane start at
multiples of 64 bytes (R95). -/
def FabArgs.scaleAt (x : FabArgs) (n k : Nat) : Nat :=
  let g := x.wGroup
  let pad := fun b => if x.sparse then alignUp b 64 else b
  if x.w.across then n / g * pad x.k + k else n * pad (ceilDiv x.k g) + k / g

/-- The logical weights `k0` to `k1 - 1` of channel `n` of expert `e`, each with the code of its group scale, and the flags of
their re-blocking (R52, R54, R62, R95), from sealed ranges too (R414). -/
def State.weightWindow (s : State) (a : Acc) (x : FabArgs) (e n k0 k1 : Nat) : Except OpErr (List (Nat × Val) × Nat) :=
  let w := elemBits x.w.elem
  let div := if x.sparse then 2 else 1
  let row := x.w.loc.plus (e * x.wStep + n * x.w.stride)
  let a := { a with sealedRd := true }
  match s.readLoc a (row.plus (k0 / div * w / 8)) (ceilDiv ((k1 - k0) / div * w) 8) with
  | .error er => .error (.access er)
  | .ok b =>
    let stored := (unpack w ((k1 - k0) / div) b).map (elemVal x.w.elem)
    match (if x.sparse then s.metaEntries a x e n k0 k1 else .ok []) with
    | .error er => .error er
    | .ok es =>
      let vals := if x.sparse then expandRuns es stored else stored
      if x.wScale = 0 then .ok (vals.map (fun v => (0x7F, v)), 0)
      else
        let first := x.scaleAt n k0
        match s.readDva a (x.w.scale + e * x.sStep + first) (x.scaleAt n (k1 - 1) - first + 1) with
        | .error er => .error (.access er)
        | .ok sc =>
          if sc.any (fun b => scaleNegative x.wScale b.toNat) then .error (.status 0x0112)
          else
            let at' := fun k => (sc[x.scaleAt n k - first]?.getD 0).toNat
            if x.w.across then
              let bs := reblocks { x.w with word := setBits x.w.word 6 2 (x.w.group + 1) }
                (vals.mapIdx (fun i v => scaled x.wScale (at' (k0 + i)) v))
              .ok (bs.flatMap (fun y => y.2.1.map (fun code => (y.1, elemVal x.w.elem code))), blockFlags bs)
            else .ok (vals.mapIdx (fun i v => (at' (k0 + i), v)), 0)

/-! ## Group sums -/

/-- The exponent of a value: the place of its leading bit. -/
def Val.exp : Val → Option Int
  | .fin _ m e => if m = 0 then none else some (e + Nat.log2 m)
  | _ => none

/-- The largest exponent of a group, if it has a finite non-zero element. -/
def maxExp (vs : List Val) : Option Int :=
  vs.foldl (fun a v => match a, v.exp with
    | none, x => x
    | some y, some x => some (max x y)
    | some y, none => some y) none

/-- An element aligned to its group's largest exponent (R58): rounded to a multiple of 2^(Emax − 15). -/
def alignVal (emax : Int) (v : Val) : Val :=
  match v with
  | .fin n m e =>
    let u := emax - 15
    if u ≤ e then v else .fin n (roundShift .rne m (u - e).toNat) u
  | _ => v

/-- A group aligned, and the number of elements that lost bits (R47, R58). -/
def alignGroup (vs : List Val) : List Val × Nat :=
  match maxExp vs with
  | none => (vs, 0)
  | some e => (vs.map (alignVal e), (vs.filter (fun v => !(v.eqv (alignVal e v)) && v != .nan)).length)

/-- The exponent of a format's smallest step (R56). -/
def stepExp (code : Nat) : Int :=
  match fmtOf code with
  | some f => 1 - f.bias - f.mb
  | none => 0

/-- A value as a cell or an operand port holds it, in counts of 2^u. -/
def cellOf (u : Int) : Val → Cell
  | .fin n m e => .num (signInt n (m * 2 ^ (e - u).toNat))
  | .inf n => .inf n
  | .nan => .nan

/-- The integer count of an element; a special one counts as 0 (R57). -/
def Cell.count : Cell → Int
  | .num n => n
  | _ => 0

/-- The product of two elements, as IEEE 754 has it (R57). -/
def Cell.mul : Cell → Cell → Cell
  | .nan, _ => .nan
  | _, .nan => .nan
  | .num a, .num b => .num (a * b)
  | .inf n, .num b => if b = 0 then .nan else .inf (n != decide (b < 0))
  | .num a, .inf m => if a = 0 then .nan else .inf (m != decide (a < 0))
  | .inf n, .inf m => .inf (n != m)

/-- The elements of a reduction group in counts (R56, R58): aligned to their largest exponent in mode 16, and otherwise in steps
of their format. -/
def mkGroup (mode16 : Bool) (code : Nat) (vs : List Val) : Grp :=
  if mode16 then
    let u := match maxExp vs with | some e => e - 15 | none => 0
    { cells := (alignGroup vs).1.map (cellOf u), unit := u }
  else { cells := vs.map (cellOf (stepExp code)), unit := stepExp code }

/-- The exact sum of a group's products (R56). -/
def groupSum (a w : Grp) : Int := ((a.cells.zip w.cells).map (fun p => p.1.count * p.2.count)).foldl (· + ·) 0

/-- What the flags of a group make of its sum, if a product is special (R57). -/
def groupFlag (a w : Grp) : Option Val :=
  let ps := (a.cells.zip w.cells).map (fun p => p.1.mul p.2)
  if ps.contains .nan || (ps.contains (.inf true) && ps.contains (.inf false)) then some .nan
  else if ps.contains (.inf true) then some (.inf true)
  else if ps.contains (.inf false) then some (.inf false)
  else none

/-- What a closing group adds to the FP32 partial (R59, R83): its sum `x` times the unit and the scales, rounded once. -/
def closeGroup (acc : Nat) (x : Int) (a w : Grp × Val) : Nat :=
  let put := fun (v : Val) => fAdd acc (toF32 ((v.mul w.2).mul a.2))
  match groupFlag a.1 w.1 with
  | some v => put v
  | none => if x = 0 then acc else put (.fin (x < 0) x.natAbs (a.1.unit + w.1.unit))

/-- The reduction groups of a row of elements with their scales, each group with the one scale that holds in it. -/
def rowGroups (mode16 : Bool) (code group : Nat) (row : List (Val × Val)) : List (Grp × Val) :=
  (chop group row.length row).map (fun g => (mkGroup mode16 code (g.map (·.1)), (g.headD (.nan, .fin false 1 0)).2))

/-- One output element after a pass whose group sums are given: the groups in ascending reduction order (R59). -/
def passElem (acc : Nat) (sums : List Int) (a w : List (Grp × Val)) : Nat :=
  (sums.zip (a.zip w)).foldl (fun acc g => closeGroup acc g.1 g.2.1 g.2.2) acc

/-- The group sums of one row and one channel. -/
def rowSums (a w : List (Grp × Val)) : List Int := (a.zip w).map (fun g => groupSum g.1.1 g.2.1)

/-- The elements that alignment rounds in rows or channels (R47, R58). -/
def alignLoss (group : Nat) (rows : List (List Val)) : Nat :=
  rows.foldl (fun n r => (chop group r.length r).foldl (fun n g => n + (alignGroup g).2) n) 0

/-! ## The operands of a pass -/

/-- A list of windows read in order; the first error ends it. -/
def collect {α : Type} (f : Nat → Except OpErr α) : List Nat → Except OpErr (List α)
  | [] => .ok []
  | i :: is =>
    match f i with
    | .error e => .error e
    | .ok x =>
      match collect f is with
      | .error e => .error e
      | .ok xs => .ok (x :: xs)

/-- The activation row that feeds output row `r`: itself, or the token that TOKEN_LIST names (R135). -/
def State.actRow (s : State) (a : Acc) (x : FabArgs) (r : Nat) : Except OpErr Nat :=
  if !x.grouped then .ok r
  else match s.readDva a (x.tokens + 8 * r) 3 with
    | .error e => .error (.access e)
    | .ok b => if leNat b < x.m then .ok (leNat b) else .error (.status 0x0116)

/-- The window of stationary tile `kt` in output row `r`. -/
def State.passRow (s : State) (a : Acc) (x : FabArgs) (ct : Option CTensor) (kt r : Nat) : Except OpErr (List (Val × Val)) :=
  match s.actRow a x r with
  | .error e => .error e
  | .ok m => s.actWindow a x.a ct m (kt * x.kt) (min x.k ((kt + 1) * x.kt))

/-! ## The stationary tile in an array -/

/-- Even parity of the low `n` bits of a number. -/
def parity (n x : Nat) : Nat := (ones x n).length % 2

/-- An entry of the scale register file (R61): the scale, with even parity in bit 15. -/
def srfEntry (code : Nat) : Nat := code % 256 + parity 15 (code % 256) * 2 ^ 15
/-- Whether an entry's parity holds. -/
def srfOk (e : Nat) : Bool := parity 16 e == 0

/-- The two lanes of a check: modulo 2³² and modulo 255 (R85, R86). -/
def laneOf (x : Int) : Nat × Nat := ((x % 2 ^ 32).toNat, (x % 255).toNat)

/-- The counts of a row or channel over the logical indices of the stationary tile. -/
def countsOf (gs : List Grp) : List Int := gs.flatMap (fun g => g.cells.map Cell.count)

/-- The sums of the lists, index by index. -/
def sumLists (n : Nat) (xs : List (List Int)) : List Int :=
  (List.range n).map (fun i => xs.foldl (fun a x => a + x.getD i 0) 0)

/-- The stationary tile that the loader writes (R62, R77, R85): the counts of each channel's groups, the scale register file's
entries, and the checksum column that it forms from those counts. -/
def loadStat (x : FabArgs) (chans : List (List (Nat × Val))) : Stat :=
  let gs := chans.map (fun c => chop x.group c.length c)
  let cs := gs.map (fun c => c.map (fun g =>
    mkGroup (x.mode == 16) x.w.elem (g.map (fun p => (scalePair x.srfFmt p.1 p.2).1))))
  { chans := cs
    srf := gs.map (fun c => c.map (fun g => srfEntry (g.headD (0x7F, .nan)).1))
    check := (sumLists x.kt (cs.map countsOf)).map laneOf }

/-- A channel of a stationary tile with the scales that its register-file entries give the rescaler. -/
def Stat.chan (x : FabArgs) (st : Stat) (j : Nat) : List (Grp × Val) :=
  ((st.chans.getD j []).zip (st.srf.getD j [])).map (fun p => (p.1, (scalePair x.srfFmt (p.2 % 256) .nan).2))

/-- The channels of a stationary tile as they are read, and the flags of their re-blocking. -/
def State.passCols (s : State) (a : Acc) (x : FabArgs) (t : Tile) (kt : Nat) : Except OpErr (List (List (Nat × Val)) × Nat) :=
  match collect (fun j => s.weightWindow a x t.expert (t.col + j) (kt * x.kt) (min x.k ((kt + 1) * x.kt))) (List.range t.cols) with
  | .error e => .error e
  | .ok cs => .ok (cs.map (·.1), cs.foldl (fun f c => f ||| c.2) 0)

/-! ## One pass in one array -/

/-- The faults of a pass that lie in an array, as what they add. -/
def sumFault (fs : List PassFault) (arr i j g : Nat) : Int :=
  fs.foldl (fun d f => match f with
    | .sum a r c h x => if a = arr ∧ r = i ∧ c = j ∧ h = g then d + x else d
    | _ => d) 0
def weightFault (fs : List PassFault) (arr k j : Nat) : Int :=
  fs.foldl (fun d f => match f with | .weight a l c x => if a = arr ∧ l = k ∧ c = j then d + x else d | _ => d) 0
def columnFault (fs : List PassFault) (arr k : Nat) : Int :=
  fs.foldl (fun d f => match f with | .column a l x => if a = arr ∧ l = k then d + x else d | _ => d) 0
def generatorFault (fs : List PassFault) (arr k : Nat) : Int :=
  fs.foldl (fun d f => match f with | .generator a l x => if a = arr ∧ l = k then d + x else d | _ => d) 0

/-- A cell's value with what a fault adds to it. -/
def Cell.shift (d : Int) : Cell → Cell
  | .num n => .num (n + d)
  | c => c

/-- A channel whose cells hold what the faults made of them. -/
def faultyChan (fs : List PassFault) (arr j group : Nat) (w : List (Grp × Val)) : List (Grp × Val) :=
  w.mapIdx (fun g p => ({ p.1 with cells := p.1.cells.mapIdx (fun i c => c.shift (weightFault fs arr (g * group + i) j)) }, p.2))

/-- A pass in one array: its rows and channels, and the group sums of every row and channel (R56, R85). -/
structure ArrayPass where
  rows  : List (List (Grp × Val))
  chans : List (List (Grp × Val))
  sums  : List (List (List Int))
  deriving DecidableEq, Repr

/-- The pass that an array runs on its rows against its stationary tile, under faults. -/
def arrayPass (x : FabArgs) (st : Stat) (fs : List PassFault) (arr : Nat) (rows : List (List (Grp × Val))) : ArrayPass :=
  let chans := (List.range st.chans.length).map (fun j => faultyChan fs arr j x.group (st.chan x j))
  { rows, chans, sums := rows.mapIdx (fun i r => chans.mapIdx (fun j w =>
      (rowSums r w).mapIdx (fun g y => y + sumFault fs arr i j g))) }

/-- T(m, n) of R85. -/
def ArrayPass.t (p : ArrayPass) (i j : Nat) : Int := ((p.sums.getD i []).getD j []).foldl (· + ·) 0

/-- The first of a list of comparisons that fails, with the values wanted and found modulo 2³² (R86). -/
def firstBad (cs : List ((Nat × Nat) × (Nat × Nat))) : Option (Nat × Nat) :=
  (cs.find? (fun c => c.1 != c.2)).map (fun c => (c.1.1, c.2.1))

/-- The column checks (R86): for every row, Σₙ T(m, n) against Σₖ A(m, k) · c(k). -/
def ArrayPass.columnChecks (p : ArrayPass) (check : List (Nat × Nat)) (fs : List PassFault) (arr : Nat) :
    List ((Nat × Nat) × (Nat × Nat)) :=
  p.rows.mapIdx (fun i r =>
    let ks := ((countsOf (r.map (·.1))).zip check).mapIdx (fun k y => (y.1, y.2, columnFault fs arr k))
    let want := ks.foldl (fun (w : Int × Int) y => (w.1 + y.1 * (y.2.1.1 + y.2.2), w.2 + y.1 * (y.2.1.2 + y.2.2))) (0, 0)
    (((laneOf want.1).1, (laneOf want.2).2),
      laneOf ((List.range p.chans.length).foldl (fun a j => a + p.t i j) 0)))

/-- The row checks (R86): for every column, Σₘ T(m, n) against Σₖ r(k) · W(k, n), with the weight that the cell holds. -/
def ArrayPass.rowChecks (p : ArrayPass) (kt : Nat) (fs : List PassFault) (arr : Nat) : List ((Nat × Nat) × (Nat × Nat)) :=
  let r := (sumLists kt (p.rows.map (fun r => countsOf (r.map (·.1))))).mapIdx (fun k y => y + generatorFault fs arr k)
  p.chans.mapIdx (fun j w =>
    (laneOf (((r.zip (countsOf (w.map (·.1)))).map (fun y => y.1 * y.2)).foldl (· + ·) 0),
      laneOf ((List.range p.rows.length).foldl (fun a i => a + p.t i j) 0)))

/-- The exact check of a pass in one array (R86): none, or the values of the first comparison that fails. -/
def ArrayPass.check (p : ArrayPass) (x : FabArgs) (st : Stat) (fs : List PassFault) (arr : Nat) : Option (Nat × Nat) :=
  firstBad (p.columnChecks st.check fs arr ++ p.rowChecks x.kt fs arr)

/-- The FP32 partials of a row after the pass (R59, R83). -/
def ArrayPass.out (p : ArrayPass) (i : Nat) (acc : List Nat) : List Nat :=
  p.chans.mapIdx (fun j w => passElem (acc.getD j 0) ((p.sums.getD i []).getD j []) (p.rows.getD i []) w)

/-! ## Accumulator banks -/

/-- An FP32 word of an accumulator bank with its byte parity (R81). -/
def bankWord (w : Nat) : Nat :=
  w % 2 ^ 32 + 2 ^ 32 * ((List.range 4).foldl (fun n i => n + parity 8 (w / 2 ^ (8 * i)) * 2 ^ i) 0)
/-- Whether a bank's word keeps its parity. -/
def bankOk (w : Nat) : Bool := bankWord w == w

end Sys2Proof.Machine
end

