-- ==== Sys2Proof/Machine/Kv.lean ====
section
/-!
DEFINITION. The paged KV cache (R164 to R187, R509): pools and their metadata area, slot headers, sequences and their page lists,
and the pool commands of PARTITION_CONFIG and SEQ_CREATE, SEQ_FORK and SEQ_FREE. Log entry 13 says which of this the model
keeps as typed fields beside the bytes in HBM.
-/
namespace Sys2Proof.Machine

/-! ## The KV manager's work -/

/-- A piece of the KV manager's work: a change of the state, or the access that failed in it. -/
abbrev KvM := StateT State (Except AccErr)

/-- A read by device virtual address. -/
def kvRead (a : Acc) (dva n : Nat) : KvM (List Byte) := fun s =>
  match s.readDva a dva n with
  | .ok b => .ok (b, s)
  | .error e => .error e

/-- A write by device virtual address. -/
def kvWrite (a : Acc) (dva : Nat) (bs : List Byte) : KvM Unit := fun s =>
  match s.writeDva a dva bs with
  | (s', none) => .ok ((), s')
  | (_, some e) => .error e

/-- A command's work on the KV manager, whole or not at all (R177): a failed access leaves only the poison of R211. -/
def kvDo (s : State) (m : KvM (Nat × Nat)) : Res :=
  match m s with
  | .ok ((st, d), s') => .done s' st d none
  | .error e =>
    let bad := match e.write, e.dpa with | true, some d => s.poisonUnit d | _, _ => s
    .fail bad e

/-- The opcodes that the KV manager carries out one at a time (R176). -/
def Cmd.isKv (c : Cmd) : Bool :=
  c.op == 0x04 || (0x38 ≤ c.op && c.op ≤ 0x3D) || (c.op == 0x82 && c.f 49 0 8 != 0)

/-- Whether a command in flight has an effect on the pools still to come. -/
def Cmd.kvOpen (c : Cmd) : Bool := c.phase != .written && c.phase != .watched

/-- Whether the KV manager may take a command: every pool-changing command of the partition dispatched before it has had its whole
effect (R177, R315). The commit of a STEP_END comes in that order too, but not before what it waits for itself, nor before a
STEP_BEGIN, which acts at its start (R312, R313; DEDUCED, log entry 66). -/
def State.kvTurn (s : State) (c : Cmd) : Bool :=
  !s.fe.cmds.any (fun d => d.id < c.id && d.part == c.part && d.kvOpen &&
    (if c.op = 0x05 then d.isKv && d.op != 0x04 && d.op != 0x3B
     else d.isKv || (d.op == 0x05 && c.op != 0x04 && c.op != 0x3B)))

/-- A KV command's body, in its turn. -/
def kvBody (body : State → Cmd → Res) (s : State) (c : Cmd) : Res := if s.kvTurn c then body s c else .more s

/-! ## Formats and sizes -/

/-- Whether a byte is a valid page format tag for a head dimension (R166). -/
def tagOk (tag dim : Nat) : Bool :=
  [1, 3, 4, 7].contains (tag % 16) && bits tag 4 2 != 3 && (tag % 16 != 1 || bits tag 4 2 == 0) &&
    dim % (16 * 2 ^ bits tag 6 2) == 0 && tag < 256

/-- Whether slots of a tag may appear in a pool (R167). -/
def Pool.fits (pl : Pool) (tag : Nat) : Bool := tagOk tag pl.dim && slotBytes pl.heads pl.dim tag ≤ pl.slot
/-- Where a page's slot of a layer begins (R167). -/
def Pool.slotAt (pl : Pool) (page layer : Nat) : Nat := pl.base + (page * pl.layers + layer) * pl.slot
/-- The size of the metadata area (R170). -/
def Pool.metaBytes (pl : Pool) : Nat := alignUp (12 * pl.pages + 128 * 2 ^ pl.log2) 64
/-- Where bucket entry `i` begins (R170, R183). -/
def Pool.entryAt (pl : Pool) (i : Nat) : Nat := pl.metaAt + 12 * pl.pages + 32 * i
/-- Pages on the free stack. -/
def Pool.free (pl : Pool) : Nat := pl.stack.length + (pl.pages - pl.taken.length)
/-- A page's REFCOUNT (R169). -/
def Pool.ref (pl : Pool) (page : Nat) : Nat := pl.refs.get (fun _ => 0) page
/-- The entries whose pages are evictable (R186). -/
def Pool.evictable (pl : Pool) : List Entry := pl.entries.filter (fun e => pl.ref e.page == 0 && e.children == 0)
/-- The entry of a page in the prefix tree. -/
def Pool.entryOf (pl : Pool) (page : Nat) : Option Entry := pl.entries.find? (fun e => e.page == page)

def State.pool (s : State) (p i : Nat) : Pool := (s.part p).pools.get (fun _ => {}) i
def State.updPool (s : State) (p i : Nat) (f : Pool → Pool) : State :=
  s.updPart p fun x => { x with pools := x.pools.upd (fun _ => {}) i f }
def State.seq (s : State) (p q : Nat) : Seq := (s.part p).seqs.get (fun _ => {}) q
def State.updSeq (s : State) (p q : Nat) (f : Seq → Seq) : State :=
  s.updPart p fun x => { x with seqs := x.seqs.upd (fun _ => {}) q f }
/-- How many sequence IDs a partition owns (R171). -/
def State.seqIds (s : State) (p : Nat) : Nat := 32768 * s.nSlices p

/-- The KV manager's authority over a pool: the address space that defined it, as the engine's own access. -/
def State.poolAcc (s : State) (c : Cmd) (pl : Pool) : Acc := { s.accOf c 31 false with asid := pl.asid, user := false }
/-- The authority over a sequence's page list: the address space that supplied it (R172). -/
def State.listAcc (s : State) (c : Cmd) (q : Seq) : Acc := { s.accOf c 31 false with asid := q.asid }

/-! ## Headers, entries and pages -/

/-- A slot header (R169): `b3` holds CACHED and KNOWN, `toks` the token field. -/
def headerBytes (tag count layer b3 ref key toks : Nat) : List Byte :=
  leBytes 1 tag ++ leBytes 1 count ++ leBytes 1 layer ++ leBytes 1 b3 ++ leBytes 4 ref ++ leBytes 16 key ++ leBytes 40 toks

/-- The token IDs of a header. -/
def headerTokens (h : List Byte) : List Nat := (List.range 16).map (fun t => bits (num h 24 40) (20 * t) 20)

/-- A bucket entry's bytes (R183). -/
def Entry.bytes (e : Entry) : List Byte :=
  leBytes 16 e.key ++ leBytes 4 (e.page + 2 ^ 31) ++ leBytes 4 e.parent ++ leBytes 4 e.stamp ++ leBytes 2 e.children ++
    leBytes 2 0

/-- The free stack and the eviction links, whose layout the spec does not give, after a change of them (log entry 13). -/
def kvChurn (c : Cmd) (p i : Nat) : KvM Unit := do
  let s ← get
  let pl := s.pool p i
  kvWrite (s.poolAcc c pl) pl.metaAt ((List.range (12 * pl.pages)).map (Config.freeByte s.free))
  modify State.draw

/-- A page's REFCOUNT set, in the pool and in its layer-0 header. -/
def kvSetRef (c : Cmd) (p i page n : Nat) : KvM Unit := do
  let s ← get
  let pl := s.pool p i
  set (s.updPool p i fun x => { x with refs := x.refs.set (fun _ => 0) page n })
  kvWrite (s.poolAcc c pl) (pl.slotAt page 0 + 4) (leBytes 4 n)

/-- An entry put into the tree or rewritten. -/
def kvPutEntry (c : Cmd) (p i : Nat) (e : Entry) : KvM Unit := do
  let s ← get
  let pl := s.pool p i
  set (s.updPool p i fun x => { x with entries := e :: x.entries.filter (fun y => y.slot != e.slot) })
  kvWrite (s.poolAcc c pl) (pl.entryAt e.slot) e.bytes

/-- CHILDREN of the entry of a page's parent changed (R185, R186). -/
def kvAddChild (c : Cmd) (p i parent : Nat) (f : Nat → Nat) : KvM Unit := do
  let s ← get
  match (s.pool p i).entryOf parent with
  | some e => kvPutEntry c p i { e with children := f e.children }
  | none => pure ()

/-- CACHED and PREFIX_KEY of a page's layer-0 header (R169), KNOWN kept. -/
def kvSetCached (c : Cmd) (p i page : Nat) (cached : Bool) (key : Nat) : KvM Unit := do
  let s ← get
  let pl := s.pool p i
  let a := s.poolAcc c pl
  let h ← kvRead a (pl.slotAt page 0) 64
  kvWrite a (pl.slotAt page 0 + 3) (leBytes 1 (num h 3 1 / 2 % 2 * 2 + b2n cached))
  kvWrite a (pl.slotAt page 0 + 8) (leBytes 16 key)

/-- A page pushed onto the free stack. -/
def kvPush (c : Cmd) (p i page : Nat) : KvM Unit := do
  modify fun s => s.updPool p i fun x => { x with stack := page :: x.stack }
  kvChurn c p i

/-- One entry's page evicted (R186). -/
def kvEvict (c : Cmd) (p i : Nat) (e : Entry) : KvM Unit := do
  let s ← get
  let pl := s.pool p i
  set ((s.updPool p i fun x => { x with entries := x.entries.filter (fun y => y.slot != e.slot),
                                        evictions := satAdd 32 x.evictions 1 }).countPart p 0x42 1)
  kvWrite (s.poolAcc c pl) (pl.entryAt e.slot + 19) [0]
  kvAddChild c p i e.parent (· - 1)
  kvSetCached c p i e.page false 0
  kvPush c p i e.page

/-- The evictable entry with the oldest STAMP, and the lowest page among equal ones (R186). -/
def oldestEntry (es : List Entry) : Option Entry :=
  es.foldl (fun a e => match a with
    | none => some e
    | some b => if e.stamp < b.stamp ∨ (e.stamp = b.stamp ∧ e.page < b.page) then some e else some b) none

/-- One page evicted under R186. -/
def kvEvictOne (c : Cmd) (p i : Nat) : KvM Unit := do
  let s ← get
  match oldestEntry (s.pool p i).evictable with
  | some e => kvEvict c p i e
  | none => pure ()

/-- A page taken from the free stack: the last one pushed, or any that was never taken (log entry 13). -/
def kvTake (c : Cmd) (p i : Nat) : KvM Nat := do
  let s ← get
  let pl := s.pool p i
  let page := match pl.stack with
    | t :: _ => t
    | [] =>
      let left := (List.range pl.pages).filter (fun k => !pl.taken.contains k)
      left.getD (Config.freeNat s.free 0 % left.length) 0
  set ((s.updPool p i fun x =>
    if x.stack.isEmpty then { x with taken := page :: x.taken } else { x with stack := x.stack.drop 1 }).draw.countPart p 0x40 1)
  kvChurn c p i
  pure page

/-- The headers of a taken page (R509), layer by layer. -/
def kvFresh (c : Cmd) (p i page : Nat) : List Nat → KvM Unit
  | [] => pure ()
  | l :: ls => do
    let s ← get
    let pl := s.pool p i
    kvWrite (s.poolAcc c pl) (pl.slotAt page l) (headerBytes 0 0 l 0 (if l = 0 then 1 else 0) 0 (2 ^ 320 - 1))
    kvFresh c p i page ls

/-- `n` pages taken. -/
def kvTakeMany (c : Cmd) (p i : Nat) : Nat → KvM (List Nat)
  | 0 => pure []
  | n + 1 => do
    let page ← kvTake c p i
    let rest ← kvTakeMany c p i n
    pure (page :: rest)

/-- Taken pages made ready for a sequence: fresh headers and REFCOUNT 1 (R509). -/
def kvReady (c : Cmd) (p i : Nat) : List Nat → KvM Unit
  | [] => pure ()
  | page :: ps => do
    let s ← get
    kvFresh c p i page (List.range (s.pool p i).layers)
    kvSetRef c p i page 1
    kvReady c p i ps

/-- Every slot of a page copied into another (R176), layer by layer. -/
def kvCopySlots (c : Cmd) (p i old page : Nat) : List Nat → KvM Unit
  | [] => pure ()
  | l :: ls => do
    let s ← get
    let pl := s.pool p i
    let a := s.poolAcc c pl
    let bs ← kvRead a (pl.slotAt old l) pl.slot
    kvWrite a (pl.slotAt page l) bs
    kvCopySlots c p i old page ls

/-- A shared last page copied (R176, R509): the copy has REFCOUNT 1 and is not CACHED; the old page loses one reference. -/
def kvCopyPage (c : Cmd) (p i old page : Nat) : KvM Unit := do
  let s ← get
  let pl := s.pool p i
  kvCopySlots c p i old page (List.range pl.layers)
  kvSetRef c p i page 1
  kvSetCached c p i page false 0
  kvSetRef c p i old (pl.ref old - 1)
  modify fun s => s.countPart p 0x43 1

/-! ## Page lists -/

/-- The page indices of a sequence's list (R172), from entry `j`, `n` of them. -/
def kvList (c : Cmd) (q : Seq) (j n : Nat) : KvM (List Nat) := do
  let s ← get
  let bs ← kvRead (s.listAcc c q) (q.list + 4 * j) (4 * n)
  pure ((List.range n).map (fun k => num bs (4 * k) 3))

/-- Entries of a page list written from entry `j`. -/
def kvPutList (c : Cmd) (q : Seq) (j : Nat) (pages : List Nat) : KvM Unit := do
  let s ← get
  kvWrite (s.listAcc c q) (q.list + 4 * j) (pages.flatMap (leBytes 4))

/-- One reference of every page given up (R174): a page that reaches 0 and is not CACHED returns to the free stack. -/
def kvDrop (c : Cmd) (p i : Nat) : List Nat → KvM Unit
  | [] => pure ()
  | page :: ps => do
    let s ← get
    let pl := s.pool p i
    kvSetRef c p i page (pl.ref page - 1)
    if pl.ref page ≤ 1 ∧ (pl.entryOf page).isNone then kvPush c p i page
    kvDrop c p i ps

/-- One reference of every page added (R175). -/
def kvAdd (c : Cmd) (p i : Nat) : List Nat → KvM Unit
  | [] => pure ()
  | page :: ps => do
    let s ← get
    kvSetRef c p i page ((s.pool p i).ref page + 1)
    kvAdd c p i ps

/-! ## Pools -/

/-- A POOL_DEFINE block as a pool (R164). -/
def poolOf (b : List Byte) (asid : Nat) : Pool :=
  { asid, base := num b 0 8, metaAt := num b 8 8, pages := num b 16 4, layers := num b 20 1, heads := num b 21 1,
    dim := num b 22 2, tag := num b 24 1, log2 := num b 27 1, salt := num b 32 16 }

/-- Whether a POOL_DEFINE block keeps every limit of R164. -/
def poolOk (b : List Byte) : Bool :=
  let pl := poolOf b 0
  pl.base % 4096 == 0 && dvaOk pl.base && pl.metaAt % 64 == 0 && dvaOk pl.metaAt && 1 ≤ pl.pages && pl.pages ≤ 16777215 &&
    1 ≤ pl.layers && 1 ≤ pl.heads && pl.heads ≤ 64 && [64, 128, 256].contains pl.dim && tagOk pl.tag pl.dim &&
    10 ≤ pl.log2 && pl.log2 ≤ 24 && num b 25 2 == 0 && num b 28 4 == 0 && num b 48 16 == 0

/-- POOL_DEFINE (R165): the index before the block; then the whole metadata area is written. -/
def poolDefine (s : State) (c : Cmd) : Res :=
  let b := c.block.getD []
  let i := c.f 50 0 4
  let pl := poolOf b c.asid
  if c.f 49 0 8 ≠ 1 then .more s
  else if (s.pool c.part i).pages ≠ 0 then .done s 0x0507 0 none
  else if !poolOk b then .done s 0x0506 0 none
  else kvDo s (do
    kvWrite (s.poolAcc c pl) pl.metaAt ((List.range (12 * pl.pages)).map (Config.freeByte s.free) ++
      List.replicate (pl.metaBytes - 12 * pl.pages) 0)
    modify fun s => (s.updPool c.part i fun _ => pl).draw
    pure (0, 0))

/-- POOL_DEFINE (R165). -/
def execPoolDefine (cmd : Nat) (s : State) : Answer := .next (runCmd s cmd [0x82] (kvBody poolDefine))

/-- Whether a sequence of the partition names a pool (R165). -/
def State.poolUsed (s : State) (p i : Nat) : Bool := (s.part p).seqs.any (fun q => q.2.state != 0 && q.2.pool == i)

/-- POOL_REMOVE (R165). -/
def poolRemove (s : State) (c : Cmd) : Res :=
  let i := c.f 50 0 4
  if c.f 49 0 8 ≠ 2 then .more s
  else if (s.pool c.part i).pages = 0 then .done s 0 0 none
  else if s.poolUsed c.part i then .done s 0x0507 0 none
  else .done (s.updPool c.part i fun _ => {}) 0 0 none

/-- POOL_REMOVE (R165). -/
def execPoolRemove (cmd : Nat) (s : State) : Answer := .next (runCmd s cmd [0x82] (kvBody poolRemove))

/-! ## Sequences -/

/-- The largest MAX_TOKENS (R171). -/
def maxTokens : Nat := 2097152

/-- Whether an address may hold a page list (R172, R298). -/
def listOk (a : Nat) : Bool := a % 64 == 0 && dvaOk a

/-- SEQ_CREATE (R173). -/
def seqCreate (s : State) (c : Cmd) : Res :=
  let q := c.f 32 0 18
  let i := c.f 36 0 4
  let n := c.f 40 0 32
  if !listOk (c.f 48 0 64) then .done s 0x0104 0 none
  else if s.seqIds c.part ≤ q then .done s 0x0502 0 none
  else if (s.seq c.part q).state ≠ 0 then .done s 0x0505 0 none
  else if (s.pool c.part i).pages = 0 ∨ n = 0 ∨ maxTokens < n then .done s 0x0506 0 none
  else .done (s.updSeq c.part q fun _ =>
    { state := 1, pool := i, maxTok := n, list := c.f 48 0 64, asid := c.asid, lastKey := (s.pool c.part i).salt }) 0 0 none

/-- SEQ_CREATE (R173). -/
def execSeqCreate (cmd : Nat) (s : State) : Answer := .next (runCmd s cmd [0x38] (kvBody seqCreate))

/-- The first check of R175 that a fork fails. -/
def State.forkCheck (s : State) (p parent child n : Nat) : Nat :=
  let a := s.seq p parent
  if s.seqIds p ≤ parent ∨ a.state = 0 then 0x0502
  else if a.state = 2 then 0x0504
  else if s.seqIds p ≤ child then 0x0502
  else if (s.seq p child).state ≠ 0 then 0x0505
  else if n = 0 ∨ n < a.length ∨ maxTokens < n then 0x0503
  else 0

/-- SEQ_FORK (R175). -/
def seqFork (s : State) (c : Cmd) : Res :=
  let parent := c.f 32 0 18
  let child := c.f 36 0 18
  let n := c.f 40 0 32
  let a := s.seq c.part parent
  if !listOk (c.f 48 0 64) then .done s 0x0104 0 none
  else match s.forkCheck c.part parent child n with
    | 0 => kvDo s (do
        let q := { a with maxTok := n, list := c.f 48 0 64, asid := c.asid }
        let pages ← kvList c a 0 a.count
        kvPutList c q 0 pages
        kvAdd c c.part a.pool pages
        modify fun s => s.updSeq c.part child fun _ => q
        pure (0, 0))
    | st => .done s st 0 none

/-- SEQ_FORK (R175). -/
def execSeqFork (cmd : Nat) (s : State) : Answer := .next (runCmd s cmd [0x39] (kvBody seqFork))

/-- SEQ_FREE (R174). -/
def seqFree (s : State) (c : Cmd) : Res :=
  let q := c.f 32 0 18
  let a := s.seq c.part q
  if s.seqIds c.part ≤ q ∨ a.state = 0 then .done s 0x0502 0 none
  else if a.state = 2 then .done s 0x0504 0 none
  else kvDo s (do
    let pages ← kvList c a 0 a.count
    kvDrop c c.part a.pool pages
    modify fun s => s.updSeq c.part q fun _ => {}
    pure (0, 0))

/-- SEQ_FREE (R174). -/
def execSeqFree (cmd : Nat) (s : State) : Answer := .next (runCmd s cmd [0x3A] (kvBody seqFree))

end Sys2Proof.Machine
end

