-- ==== Sys2Proof/Machine/KvStep.lean ====
section
/-!
DEFINITION. Batch steps (R311 to R314): the prefix tree's lookup and insertion (R182 to R186), the reservation of a step list
(R178 to R180), STEP_BEGIN, STEP_END and the commit (R181).
-/
namespace Sys2Proof.Machine

/-! ## The prefix tree -/

/-- The PARENT value of a prefix's first page (R183). -/
def noParent : Nat := 0xFFFFFF

/-- The chain key of a page from the key before it and the page's 16 token IDs (R182). -/
def chainKey (key : Nat) (toks : List Nat) : Nat :=
  leNat (padTo 16 (shake256 (leBytes 16 key ++ toks.flatMap (leBytes 4)) 16))

/-- The bucket of a key (R182). -/
def Pool.bucket (pl : Pool) (key : Nat) : Nat := key % 2 ^ pl.log2

/-- The entry that holds a key. -/
def Pool.entryFor (pl : Pool) (key : Nat) : Option Entry :=
  pl.entries.find? (fun e => e.slot / 4 == pl.bucket key && e.key == key)

/-- What a lookup found (R184): its pages, the chain key of the last, and the candidates that failed. -/
structure Hits where
  pages : List Nat
  key   : Nat
  fails : Nat

/-- Whether the header of a candidate page holds the tokens supplied (R184). -/
def headerHolds (h : List Byte) (toks : List Nat) : Bool := headerTokens h == toks

/-- `n` token IDs, read with the command's own authority (R178). -/
def kvTokens (c : Cmd) (dva n : Nat) : KvM (List Nat) := do
  let s ← get
  let bs ← kvRead (s.accOf c 31 false) dva (4 * n)
  pure ((List.range n).map (fun k => num bs (4 * k) 4))

/-- A lookup of at most `n` further pages, with the token IDs from `ta` on (R184): each hit gains a reference and the current stamp;
the first miss ends it. -/
def kvLookup (c : Cmd) (p i : Nat) : Nat → Nat → Nat → Nat → KvM Hits
  | 0, _, _, key => pure ⟨[], key, 0⟩
  | n + 1, ta, parent, key => do
    let toks ← kvTokens c ta 16
    let s ← get
    let pl := s.pool p i
    let k := chainKey key toks
    match pl.entryFor k with
    | none => pure ⟨[], key, 0⟩
    | some e =>
      if e.parent ≠ parent then pure ⟨[], key, 1⟩
      else
        let h ← kvRead (s.poolAcc c pl) (pl.slotAt e.page 0) 64
        if !headerHolds h toks then pure ⟨[], key, 1⟩
        else if num h 1 1 % 32 ≠ 16 ∨ num h 3 1 / 2 % 2 ≠ 1 ∨ num h 8 16 ≠ k then pure ⟨[], key, 0⟩
        else
          kvSetRef c p i e.page (pl.ref e.page + 1)
          kvPutEntry c p i { e with stamp := pl.stamp }
          let r ← kvLookup c p i n (ta + 64) e.page k
          pure ⟨e.page :: r.pages, r.key, r.fails⟩

/-- The events of a lookup (R201). -/
def State.countHits (s : State) (p : Nat) (h : Hits) : State := (s.countPart p 0x44 h.pages.length).countPart p 0x45 h.fails

/-- A lookup's pages put into an idle sequence of length 0 (R184). -/
def kvPin (c : Cmd) (p q : Nat) (h : Hits) : KvM Unit := do
  let s ← get
  kvPutList c (s.seq p q) 0 h.pages
  modify fun s => s.updSeq p q fun x =>
    { x with length := 16 * h.pages.length, count := h.pages.length, keyPages := h.pages.length, lastKey := h.key }

/-- PREFIX_LOOKUP (R184): DETAIL is the tokens hit. -/
def prefixLookup (s : State) (c : Cmd) : Res :=
  let q := c.f 32 0 18
  let n := c.f 36 0 32
  let ta := c.f 40 0 64
  let x := s.seq c.part q
  if s.seqIds c.part ≤ q ∨ x.state = 0 then .done s 0x0502 0 none
  else if x.state = 2 then .done s 0x0504 0 none
  else if x.length ≠ 0 ∨ n = 0 ∨ ta = 0 then .done s 0 0 none
  else if ta % 4 ≠ 0 ∨ !dvaOk ta then .done s 0x0104 0 none
  else kvDo s (do
    let h ← kvLookup c c.part x.pool ((n - 1) / 16) ta noParent (s.pool c.part x.pool).salt
    if !h.pages.isEmpty then kvPin c c.part q h
    modify fun s => s.countHits c.part h
    pure (0, 16 * h.pages.length))

/-- PREFIX_LOOKUP (R184). -/
def execPrefixLookup (cmd : Nat) (s : State) : Answer := .next (runCmd s cmd [0x3C] (kvBody prefixLookup))

/-- A place for a new entry in a bucket (R185): an invalid one, any of them (log entry 13), or that of the oldest evictable
entry, which is evicted first. -/
def kvPlace (c : Cmd) (p i bucket : Nat) : KvM (Option Nat) := do
  let s ← get
  let pl := s.pool p i
  let here := pl.entries.filter (fun e => e.slot / 4 == bucket)
  let open_ := ((List.range 4).map (4 * bucket + ·)).filter (fun k => here.all (fun e => e.slot != k))
  match open_ with
  | k :: ks =>
    set s.draw
    pure (some ((k :: ks).getD (Config.freeNat s.free 0 % (ks.length + 1)) k))
  | [] =>
    match oldestEntry (pl.evictable.filter (fun e => e.slot / 4 == bucket)) with
    | none => pure none
    | some e =>
      kvEvict c p i e
      pure (some e.slot)

/-- Insertion of the full, known pages listed (R185): the pages inserted, the pages now covered by chain keys, the last key,
and whether a full bucket stopped it. -/
def kvInsert (c : Cmd) (p i : Nat) : List Nat → Nat → Nat → KvM (Nat × Nat × Nat × Bool)
  | [], _, key => pure (0, 0, key, false)
  | page :: ps, parent, key => do
    let s ← get
    let pl := s.pool p i
    let h ← kvRead (s.poolAcc c pl) (pl.slotAt page 0) 64
    if num h 1 1 % 32 ≠ 16 ∨ num h 3 1 / 2 % 2 ≠ 1 then pure (0, 0, key, false)
    else
      let k := chainKey key (headerTokens h)
      match pl.entryFor k with
      | some e =>
        if e.page ≠ page then pure (0, 0, key, false)
        else
          let r ← kvInsert c p i ps page k
          pure (r.1, r.2.1 + 1, r.2.2)
      | none =>
        match ← kvPlace c p i (pl.bucket k) with
        | none => pure (0, 0, key, true)
        | some slot =>
          kvPutEntry c p i { slot, key := k, page, parent, stamp := pl.stamp }
          kvAddChild c p i parent (· + 1)
          kvSetCached c p i page true k
          let r ← kvInsert c p i ps page k
          pure (r.1 + 1, r.2.1 + 1, r.2.2)

/-- PREFIX_INSERT (R185): DETAIL is the pages inserted; 0x0005 where a full bucket stopped it. -/
def prefixInsert (s : State) (c : Cmd) : Res :=
  let q := c.f 32 0 18
  let x := s.seq c.part q
  if s.seqIds c.part ≤ q ∨ x.state = 0 then .done s 0x0502 0 none
  else if x.state = 2 then .done s 0x0504 0 none
  else kvDo s (do
    let pages ← kvList c x 0 (x.length / 16)
    let parent := if x.keyPages = 0 then noParent else pages.getD (x.keyPages - 1) noParent
    let r ← kvInsert c c.part x.pool (pages.drop x.keyPages) parent x.lastKey
    modify fun s => s.updSeq c.part q fun x => { x with keyPages := x.keyPages + r.2.1, lastKey := r.2.2.1 }
    pure (if r.2.2.2 then 0x0005 else 0, r.1))

/-- PREFIX_INSERT (R185). -/
def execPrefixInsert (cmd : Nat) (s : State) : Answer := .next (runCmd s cmd [0x3D] (kvBody prefixInsert))

/-! ## Reservation -/

/-- A result word (R178). -/
def resultWord (code flags pages hit len : Nat) : List Byte :=
  leBytes 2 code ++ leBytes 1 flags ++ leBytes 1 0 ++ leBytes 4 pages ++ leBytes 4 hit ++ leBytes 4 len

/-- `n` pages evicted (R179). -/
def kvEvictMany (c : Cmd) (p i : Nat) : Nat → KvM Unit
  | 0 => pure ()
  | n + 1 => do
    kvEvictOne c p i
    kvEvictMany c p i n

/-- The last page of a sequence that is reserved for new tokens, if it is shared and so must be copied (R176). -/
def kvShared (c : Cmd) (p : Nat) (x : Seq) : KvM (Option Nat) := do
  if x.length % 16 = 0 then pure none
  else
    let last ← kvList c x (x.length / 16) 1
    let s ← get
    let page := last.getD 0 0
    pure (if 1 < (s.pool p x.pool).ref page then some page else none)

/-- An entry that passed its checks: reserved, or deferred with nothing changed but what counts it (R179, R180). -/
def kvGrant (c : Cmd) (p step q new ta : Nat) (look : Bool) : KvM (List Byte × Bool) := do
  let s0 ← get
  let x := s0.seq p q
  let i := x.pool
  let h ← if look then kvLookup c p i ((new - 1) / 16) ta noParent (s0.pool p i).salt else pure ⟨[], x.lastKey, 0⟩
  let hit := 16 * h.pages.length
  let old ← kvShared c p x
  let s1 ← get
  let pl := s1.pool p i
  let need := ceilDiv (x.length + new) 16 - ceilDiv (x.length + hit) 16 + b2n old.isSome
  if pl.free + pl.evictable.length < need then
    set (((s0.countHits p h).countPart p 0x41 1).updPool p i fun y => { y with deferrals := satAdd 32 y.deferrals 1 })
    pure (resultWord 0x0501 0 0 0 x.length, false)
  else
    kvEvictMany c p i (need - pl.free)
    let taken ← kvTakeMany c p i need
    let fresh := if old.isSome then taken.drop 1 else taken
    match old with
    | some page =>
      kvCopyPage c p i page (taken.getD 0 0)
      kvPutList c x (x.length / 16) [taken.getD 0 0]
    | none => pure ()
    kvReady c p i fresh
    kvPutList c x (x.count) (h.pages ++ fresh)
    modify fun s => (s.countHits p h).updSeq p q fun y => { y with
      length := x.length + hit
      run := new - hit
      state := 2
      step := step % 2 ^ 32
      count := x.count + h.pages.length + fresh.length
      keyPages := if hit = 0 then x.keyPages else h.pages.length
      lastKey := if hit = 0 then x.lastKey else h.key }
    pure (resultWord 0 (b2n old.isSome + 2 * b2n (pl.free < need)) need hit (x.length + hit), true)

/-- One entry of a step list, with the checks of R179 in their order; `seen` holds the IDs of the entries before it. Whether it was
reserved. -/
def kvEntry (c : Cmd) (p step : Nat) (seen : List Nat) (e : List Byte) : KvM (List Byte × Bool) := do
  let s ← get
  let q := bits (num e 0 4) 0 18
  let new := num e 4 4
  let ta := num e 8 8
  let x := s.seq p q
  if s.seqIds p ≤ q ∨ x.state = 0 then pure (resultWord 0x0502 0 0 0 0, false)
  else if x.state = 2 ∨ seen.contains q then pure (resultWord 0x0504 0 0 0 x.length, false)
  else if new = 0 ∨ maxTokens < new ∨ x.maxTok < x.length + new then pure (resultWord 0x0503 0 0 0 x.length, false)
  else
    let toks ← if ta = 0 then pure [] else kvTokens c ta new
    if toks.any (fun t => decide (0xFFFFE < t)) then pure (resultWord 0x050D 0 0 0 x.length, false)
    else kvGrant c p step q new ta (bitB (num e 0 4) 30 && x.length == 0 && ta != 0)

/-- The entries of a list reserved in order (R179), each with its result word; how many were not reserved. An access that
fails ends the list there, and the entries before it stay reserved (R223). -/
def State.reserveAll (s : State) (c : Cmd) (step : Nat) (seen : List Nat) :
    List (List Byte) → Nat → Nat → State × Nat × Option AccErr
  | [], _, bad => (s, bad, none)
  | e :: es, at', bad =>
    let one : KvM Bool := do
      let r ← kvEntry c c.part step seen e
      let t ← get
      kvWrite (t.accOf c 31 false) at' r.1
      pure r.2
    match one s with
    | .error err => (match err.write, err.dpa with | true, some d => s.poisonUnit d | _, _ => s, bad, some err)
    | .ok (done, s') => s'.reserveAll c step (bits (num e 0 4) 0 18 :: seen) es (at' + 16) (bad + b2n !done)

/-- A step list that keeps R178, cut into its entries. -/
def State.stepList (s : State) (c : Cmd) (list n : Nat) : Except OpErr (List (List Byte)) :=
  if list % 64 ≠ 0 ∨ n = 0 ∨ 65536 < n then .error (.status 0x050B)
  else if !dvaOk list then .error (.status 0x0104)
  else match s.readDva (s.accOf c 31 false) list (16 * n) with
    | .error e => .error (.access e)
    | .ok b =>
      let es := chop 16 n b
      if es.any (fun e => num e 8 8 % 4 ≠ 0) then .error (.status 0x050B) else .ok es

/-- The list of STEP_BEGIN or KV_RESERVE (R178, R306). -/
def State.reserveList (s : State) (c : Cmd) : Except OpErr (List (List Byte)) :=
  if c.f 40 0 64 % 16 ≠ 0 then .error (.status 0x050B)
  else if !dvaOk (c.f 40 0 64) then .error (.status 0x0104)
  else s.stepList c (c.f 32 0 64) (c.f 48 0 32)

/-- The end of a reservation (R180). -/
def reserved (r : State × Nat × Option AccErr) : Res :=
  match r with
  | (s, _, some e) => .fail s e
  | (s, bad, none) => .done s (if bad = 0 then 0 else 0x0004) (min bad 0xFFFFFF) none

/-- KV_RESERVE (R179, R180). -/
def kvReserve (s : State) (c : Cmd) : Res :=
  match s.reserveList c with
  | .error e => e.res s 31
  | .ok es => reserved (s.reserveAll c (s.reg64 (Reg.stepLo c.part) (Reg.stepHi c.part)) [] es (c.f 40 0 64) 0)

/-- KV_RESERVE (R179). -/
def execKvReserve (cmd : Nat) (s : State) : Answer := .next (runCmd s cmd [0x3B] (kvBody kvReserve))

/-! ## Steps -/

/-- A step opened (R312): STEP_OPEN, the step number, the stamp of every pool, and the watches left behind (R455). -/
def State.openStep (s : State) (c : Cmd) : State :=
  let n := (s.reg64 (Reg.stepLo c.part) (Reg.stepHi c.part) + 1) % 2 ^ 64
  let s := (s.setFld (Reg.part c.part) 3 1 1).setReg64 (Reg.stepLo c.part) (Reg.stepHi c.part) n
  let s := (List.range 16).foldl (fun s i =>
    if (s.pool c.part i).pages = 0 then s
    else s.updPool c.part i fun x => { x with stamp := (x.stamp + 1) % 2 ^ 32 }) s
  s.missWatches c n

/-- The reservation of a STEP_BEGIN whose step is open, in the KV manager's turn (R177, R179). -/
def State.stepReserve (s : State) (c : Cmd) (es : List (List Byte)) : Res :=
  if s.kvTurn c then
    reserved (s.reserveAll c (s.reg64 (Reg.stepLo c.part) (Reg.stepHi c.part)) [] es (c.f 40 0 64) 0)
  else .more s

/-- STEP_BEGIN (R312): its checks and the opening at its start, then its list. -/
def stepBegin (s : State) (c : Cmd) : Res :=
  if c.phase ≠ .running ∧ s.fld (Reg.part c.part) 3 1 = 1 then .done s 0x0509 0 none
  else match s.reserveList c with
    | .error e => e.res s 31
    | .ok es =>
      if c.phase = .running then s.stepReserve c es
      else ((s.openStep c).updCmd c.id fun c => { c with phase := .running }).stepReserve c es

/-- STEP_BEGIN (R312). -/
def execStepBegin (cmd : Nat) (s : State) : Answer := .next (runCmd s cmd [0x04] stepBegin)

/-- STEP_END (R313): the step closes, and the command waits for the step's commands in its turn. -/
def stepEnd (s : State) (c : Cmd) : Res :=
  if c.phase = .running then .more s
  else if s.fld (Reg.part c.part) 3 1 = 0 then .done s 0x050E 0 none
  else
    let open_ := (s.fe.cmds.filter (fun d => d.part == c.part && stepOps.contains d.op)).map (·.id)
    .more ((s.updPart c.part fun x => { x with
      closing := true
      awaits := if x.closing then x.awaits else open_
      ends := x.ends ++ [c.id] }).updCmd c.id fun c => { c with phase := .running })

/-- STEP_END (R313). -/
def execStepEnd (cmd : Nat) (s : State) : Answer := .next (runCmd s cmd [0x05] stepEnd)

/-- Whether every command that a closing step waits for has completed (R313). -/
def State.stepSettled (s : State) (p : Nat) : Bool :=
  (s.part p).awaits.all (fun id => s.fe.cmds.all (fun c => c.id != id))

/-- Every stepping sequence committed (R181), and the step closed. -/
def State.commitStep (s : State) (p : Nat) : State :=
  let s := ((s.part p).seqs.map (·.1)).foldl (fun s q => s.updSeq p q fun x =>
    if x.state = 2 then { x with length := x.length + x.run, run := 0, state := 1 } else x) s
  (s.updPart p fun x => { x with closing := false, awaits := [], ends := [] }).setFld (Reg.part p) 3 1 0

/-- The STEP_ENDs that wait behind the one that committed: no step is left for them (R313). -/
def State.endRest (s : State) (ids : List Nat) : State :=
  ids.foldl (fun s id => match s.cmd? id with
    | some c => s.complete c 0x050E 0
    | none => s) s

/-- Whether a STEP_END that is the first in its partition's line may act. -/
def State.endReady (s : State) (c : Cmd) : Bool := s.active && c.phase == .running && c.epoch == s.epoch c.part

/-- STEP_COMMIT (R177, R181, R313). -/
def execStepCommit (part : Nat) (s : State) : Answer :=
  if 8 ≤ part then .next s
  else match (s.part part).ends with
    | [] => .next s
    | id :: rest => match s.cmd? id with
      | none => .next s
      | some c => when (s.endReady c && s.stepSettled part && s.inTime c && s.kvTurn c) s
          (((s.commitStep part).endRun c 0 0 none).endRest rest)

/-- The next STEP_END in line waits again, under its own timer, from the end `t` of the one before (R313). -/
def State.nextEnd (s : State) (p t : Nat) : State :=
  match (s.part p).ends with
  | [] => s
  | id :: _ => s.updCmd id fun c => { c with deadline := t + 1000 * (c.timeoutM1 + 1) }

/-- STEP_END_WAIT_TIMEOUT (R293, R313): the wait that its timer outlasts ends without a signal; the step stays closing. -/
def execStepEndWaitTimeout (part t : Nat) (s : State) : Answer :=
  if 8 ≤ part then .next s
  else match (s.part part).ends with
    | [] => .next s
    | id :: rest => match s.cmd? id with
      | none => .next s
      | some c =>
        let s1 := s.atTime t
        when (s.endReady c && !c.infinite && c.deadline ≤ s1.now && (!s.stepSettled part || c.deadline < s1.now)) s
          (((s1.updPart part fun x => { x with ends := rest }).retire { c with waited := true } 0x0401 0 false
            (some c.deadline)).nextEnd part c.deadline)

end Sys2Proof.Machine
end

