-- ==== Sys2Proof/Machine/KvAppend.lean ====
section
/-!
DEFINITION. The rows of a step list (R305), the slots of a page (R168, R169) and KV_APPEND (R188, R189).
-/
namespace Sys2Proof.Machine

/-! ## The sequences of a step list -/

/-- A stepping sequence of a list with its entry's NEW and TOKENS_ADDR, and the first row of its tokens (R305). -/
structure StepSeq where
  seq : Seq
  new : Nat
  ta  : Nat
  row : Nat
  deriving DecidableEq, Repr

/-- The entries whose sequences step in the open step, each at its first entry (R305); `row` counts the rows before them. -/
def State.stepSeqs (s : State) (p : Nat) : List (List Byte) → List Nat → Nat → List StepSeq
  | [], _, _ => []
  | e :: es, seen, row =>
    let q := bits (num e 0 4) 0 18
    let x := s.seq p q
    if q < s.seqIds p ∧ x.state = 2 ∧ x.step = s.reg64 (Reg.stepLo p) (Reg.stepHi p) % 2 ^ 32 ∧ !seen.contains q then
      { seq := x, new := num e 4 4, ta := num e 8 8, row } :: s.stepSeqs p es (q :: seen) (row + x.run)
    else s.stepSeqs p es seen row

/-- The rows that the listed sequences give a tensor. -/
def stepRows (xs : List StepSeq) : Nat := xs.foldl (fun n x => n + x.seq.run) 0

/-- Whether a tensor has the columns of `heads` heads of each sequence's dimension, and the rows of the step. -/
def State.stepShape (s : State) (p : Nat) (xs : List StepSeq) (t : Tensor) (heads : Pool → Nat) : Bool :=
  stepRows xs ≤ t.rows && xs.all (fun x =>
    let pl := s.pool p x.seq.pool
    t.cols == heads pl * pl.dim)

/-! ## Slots -/

/-- The element code, scale format and block size of a page format tag (R166): the low byte of a format word (R50). -/
def tagTensor (tag cols : Nat) : Tensor :=
  { loc := .dva 0, scale := 0, rows := 1, cols, stride := 0, word := tag, packed := false }

/-- Bytes of one token in a plane of a slot. -/
def Pool.tokenBytes (pl : Pool) (tag : Nat) : Nat := pl.heads * pl.dim * elemBits (tag % 16) / 8
/-- Scale bytes of one token in a plane. -/
def Pool.tokenScales (pl : Pool) (tag : Nat) : Nat :=
  if bits tag 4 2 = 0 then 0 else pl.heads * pl.dim / (16 * 2 ^ bits tag 6 2)
/-- Where token `t` begins in the K plane, or the V plane, of a slot (R168). -/
def Pool.planeAt (pl : Pool) (tag t : Nat) (v : Bool) : Nat := 64 + (16 * b2n v + t) * pl.tokenBytes tag
/-- Where token `t` begins in the scales of a plane (R168). -/
def Pool.scalesAt (pl : Pool) (tag t : Nat) (v : Bool) : Nat :=
  64 + 32 * pl.tokenBytes tag + (16 * b2n v + t) * pl.tokenScales tag

/-- One token's keys, or values, of every head, as codes with their scale codes (R168). -/
def State.slotToken (s : State) (a : Acc) (pl : Pool) (slot tag t : Nat) (v : Bool) :
    Except AccErr (List Nat × List Nat) :=
  match s.readDva a (slot + pl.planeAt tag t v) (pl.tokenBytes tag),
      s.readDva a (slot + pl.scalesAt tag t v) (pl.tokenScales tag) with
  | .error e, _ => .error e
  | _, .error e => .error e
  | .ok b, .ok sc => .ok (unpack (elemBits (tag % 16)) (pl.heads * pl.dim) b, sc.map (·.toNat))

/-! ## KV_APPEND -/

/-- One token written into a plane of a slot, converted into its tag's format (R189). -/
def kvToken (a : Acc) (pl : Pool) (slot tag t : Nat) (v : Bool) (row : List Val) : KvM (Nat × Nat) := do
  let x := convTensor (tagTensor tag (pl.heads * pl.dim)) .rne (defaultIeee (tag % 16)) [row]
  kvWrite a (slot + pl.planeAt tag t v) (pack (elemBits (tag % 16)) (x.codes.headD []))
  kvWrite a (slot + pl.scalesAt tag t v) (x.scales.map (BitVec.ofNat 8))
  pure (x.flags, x.lost)

/-- The tokens of one page written: `first` is the place of the first in the page, and the rows are those of K and V. -/
def kvTokensIn (a : Acc) (pl : Pool) (slot tag first : Nat) : List (List Val × List Val) → KvM (Nat × Nat)
  | [] => pure (0, 0)
  | r :: rs => do
    let x ← kvToken a pl slot tag first false r.1
    let y ← kvToken a pl slot tag first true r.2
    let z ← kvTokensIn a pl slot tag (first + 1) rs
    pure (x.1 ||| y.1 ||| z.1, x.2 + y.2 + z.2)

/-- A page's part of KV_APPEND (R188, R189): FORMAT, COUNT, KNOWN and TOKENS of its header, and its planes. -/
def kvAppendPage (a : Acc) (pl : Pool) (slot tag0 len run j : Nat) (toks : List Nat) (rows : List (List Val × List Val)) :
    KvM (Nat × Nat) := do
  let h ← kvRead a slot 64
  let tag := if num h 0 1 = 0 then tag0 else num h 0 1
  let first := len - 16 * j
  let here := (rows.drop (16 * j - len)).take (16 - first)
  let count := min 16 (len + run - 16 * j)
  let ids := (headerTokens h).mapIdx (fun t old =>
    if first ≤ t ∧ t < count then toks.getD (16 * j + t - len) 0xFFFFF else old)
  let known := (ids.take count).all (fun t => t != 0xFFFFF)
  let field := (ids.zipIdx.map (fun (t, i) => t * 2 ^ (20 * i))).foldl (· + ·) 0
  let r ← kvTokensIn a pl slot tag first here
  kvWrite a slot (leBytes 1 tag ++ leBytes 1 count ++ leBytes 1 (num h 2 1) ++
    leBytes 1 (num h 3 1 % 2 + 2 * b2n known) ++ (h.drop 4).take 20 ++ leBytes 40 field)
  pure r

/-- The tokens of a page that a command leaves as partial results (R139). -/
def State.freePage (s : State) (a : Acc) (pl : Pool) (slot tag len run j : Nat) : State :=
  let first := len - 16 * j
  let n := min 16 (len + run - 16 * j) - first
  [false, true].foldl (fun s v =>
    (s.fillFree a (.dva (slot + pl.planeAt tag first v)) (n * pl.tokenBytes tag)).fillFree a
      (.dva (slot + pl.scalesAt tag first v)) (n * pl.tokenScales tag)) s

/-- The command's parameters (R305): the list's sequences with their page lists and token IDs, and the rows of K and V. -/
structure AppendJob where
  x     : StepSeq
  pages : List Nat
  toks  : List Nat
  rows  : List (List Val × List Val)

/-- A page of a job, with what the command needs of it. -/
structure AppendPage where
  pool : Pool
  slot : Nat
  j    : Nat
  job  : AppendJob

/-- The last RUN of an entry's token IDs, unknown where TOKENS_ADDR is 0 (R188). -/
def State.runTokens (s : State) (c : Cmd) (x : StepSeq) : Except AccErr (List Nat) :=
  if x.ta = 0 then .ok (List.replicate x.seq.run 0xFFFFF)
  else match s.readDva (s.accOf c 31 false) (x.ta + 4 * (x.new - x.seq.run)) (4 * x.seq.run) with
    | .error e => .error e
    | .ok b => .ok ((List.range x.seq.run).map (fun k => num b (4 * k) 4 % 2 ^ 20))

/-- A sequence's page list (R172). -/
def State.pageList (s : State) (c : Cmd) (q : Seq) : Except AccErr (List Nat) :=
  match s.readDva (s.listAcc c q) q.list (4 * q.count) with
  | .error e => .error e
  | .ok b => .ok ((List.range q.count).map (fun k => num b (4 * k) 3))

/-- The jobs of a list. -/
def State.appendJobs (s : State) (c : Cmd) (ks vs : List (List Val)) : List StepSeq → Except AccErr (List AppendJob)
  | [] => .ok []
  | x :: xs =>
    match s.pageList c x.seq, s.runTokens c x, s.appendJobs c ks vs xs with
    | .error e, _, _ => .error e
    | _, .error e, _ => .error e
    | _, _, .error e => .error e
    | .ok pages, .ok toks, .ok rest =>
      .ok ({ x, pages, toks, rows := ((ks.zip vs).drop x.row).take x.seq.run } :: rest)

/-- The pages that a job writes. -/
def State.appendPages (s : State) (p layer : Nat) (job : AppendJob) : List AppendPage :=
  let q := job.x.seq
  let pl := s.pool p q.pool
  (List.range (ceilDiv (q.length + q.run) 16 - q.length / 16)).map (fun i =>
    let j := q.length / 16 + i
    { pool := pl, slot := pl.slotAt (job.pages.getD j 0) layer, j, job })

/-- Every page written in order; a page whose access fails ends the command with its tokens as partial results. -/
def State.appendAll (s : State) (c : Cmd) (tag : Nat) : List AppendPage → Nat → Nat → State × Nat × Nat × Option AccErr
  | [], flags, lost => (s, flags, lost, none)
  | g :: gs, flags, lost =>
    let a := s.poolAcc c g.pool
    let q := g.job.x.seq
    match kvAppendPage a g.pool g.slot tag q.length q.run g.j g.job.toks g.job.rows s with
    | .ok (r, s') => s'.appendAll c tag gs (flags ||| r.1) (lost + r.2)
    | .error e =>
      let bad := match e.write, e.dpa with | true, some d => s.poisonUnit d | _, _ => s
      (bad.freePage a g.pool g.slot tag q.length q.run g.j, flags, lost, some e)

/-- The pages of a KV_APPEND left as partial results. -/
def State.freePages (s : State) (c : Cmd) (tag : Nat) (gs : List AppendPage) : State :=
  gs.foldl (fun s g => s.freePage (s.poolAcc c g.pool) g.pool g.slot tag g.job.x.seq.length g.job.x.seq.run g.j) s

/-- KV_APPEND's writes, and its status (R45, R189): under STRICT_NAN a lost NaN leaves partial results. `fl` are the flags that its
source rows raise. -/
def State.appendRun (s : State) (c : Cmd) (core tag fl : Nat) (gs : List AppendPage) : Res :=
  match s.appendAll c tag gs fl 0 with
  | (s1, flags, lost, some e) => .fail (s1.noteConv core flags lost) e
  | (s1, flags, lost, none) =>
    let s2 := s1.noteConv core flags lost
    let st := c.convStatus flags
    if st.1 = 0x0111 then
      .done (s2.freePages c tag gs) st.1 st.2 none
    else .done s2 st.1 st.2 none

/-- KV_APPEND (R188, R189, R305), its converter under the check of R334. -/
def kvAppend (chk : Check) (s : State) (c : Cmd) : Res :=
  let b := c.block.getD []
  let p := c.part
  let core := 3 * s.firstSlice p
  let a := s.accOf c core false
  let tag := num b 13 1
  if num b 14 2 ≠ 0 ∨ num b 80 16 ≠ 0 then .done s 0x0103 0 none
  else match s.parseTensor p b 16 false, s.parseTensor p b 48 false with
    | .error st, _ => .done s st 0 none
    | _, .error st => .done s st 0 none
    | .ok kt, .ok vt =>
      if kt.packed ∨ vt.packed then .done s 0x0607 0 none
      else match s.stepList c (num b 0 8) (num b 8 4) with
        | .error e => e.res s core
        | .ok es =>
          let xs := s.stepSeqs p es [] 0
          if xs.any (fun x => decide ((s.pool p x.seq.pool).layers ≤ num b 12 1)) then .done s 0x0104 0 none
          else if !tagOk tag 256 ∧ !tagOk tag 64 then .done s 0x0508 0 none
          else if xs.any (fun x => !(s.pool p x.seq.pool).fits tag) then .done s 0x0508 0 none
          else if !(s.stepShape p xs kt (·.heads)) ∨ !(s.stepShape p xs vt (·.heads)) then .done s 0x0116 0 none
          else
            let rows := List.range (stepRows xs)
            match s.readRows a kt none rows, s.readRows a vt none rows with
            | .error e, _ => e.res s core
            | _, .error e => e.res s core
            | .ok ks, .ok vs =>
              match s.appendJobs c ks vs xs with
              | .error e => .fail s e
              | .ok jobs =>
                let gs := jobs.flatMap (s.appendPages p (num b 12 1))
                let fl := if rows.isEmpty then 0 else
                  s.scaleFlag a { kt with rows := rows.length } ||| s.scaleFlag a { vt with rows := rows.length }
                checked (s.touch c.id core) c core chk (fun s => s.freePages c tag gs) (fun s => s.appendRun c core tag fl gs)

/-- KV_APPEND (R188). -/
def execKvAppend (cmd : Nat) (chk : Check) (s : State) : Answer := .next (runCmd s cmd [0x27] (kvAppend chk))

end Sys2Proof.Machine
end

