-- ==== Sys2Proof/Machine/Attend.lean ====
section
/-!
DEFINITION. Decode attention (R190 to R198, R305): the parameters of an attention command, scores and page updates, chunks, the
merge, ATTEND_DECODE, ATTENTION_CHUNK_DONE, and the requests and steals of chunks.
-/
namespace Sys2Proof.Machine

/-! ## Parameters -/

/-- The parameters of ATTEND_DECODE and ATTEND_PREFILL (R305). -/
structure AttArgs where
  list    : Nat
  count   : Nat
  layer   : Nat
  q       : Tensor
  o       : Tensor
  scratch : Nat
  size    : Nat
  scale   : Nat
  chunk   : Nat
  prob    : Nat
  deriving DecidableEq, Repr

/-- The block of an attention command, with the first check it fails (R191, R285, R305). -/
def State.parseAtt (s : State) (c : Cmd) : Except Nat AttArgs :=
  let b := c.block.getD []
  if num b 13 3 ≠ 0 ∨ num b 105 23 ≠ 0 then .error 0x0103
  else match s.parseTensor c.part b 16 false, s.parseTensor c.part b 48 false with
    | .error st, _ => .error st
    | _, .error st => .error st
    | .ok q, .ok o =>
      if !dvaOk (num b 80 8) then .error 0x0104
      else if q.packed ∨ o.packed then .error 0x0607
      else if !([1, 3, 4, 7] : List Nat).contains q.elem ∨ (q.sf ≠ 0 ∧ q.across) then .error 0x0110
      else .ok { list := num b 0 8, count := num b 8 4, layer := num b 12 1, q, o, scratch := num b 80 8, size := num b 88 8,
                 scale := num b 96 4, chunk := num b 100 4, prob := num b 104 1 }

/-- Query heads of a sequence's rows. -/
def AttArgs.heads (x : AttArgs) (pl : Pool) : Nat := x.q.cols / pl.dim

/-- The checks that need the sequences (R164, R191, R305): LAYER, then the shapes, then the query's blocks. -/
def State.attCheck (s : State) (p : Nat) (x : AttArgs) (xs : List StepSeq) : Nat :=
  let pools := xs.map (fun y => s.pool p y.seq.pool)
  if pools.any (fun pl => decide (pl.layers ≤ x.layer)) then 0x0104
  else if x.o.cols ≠ x.q.cols ∨ x.q.rows < stepRows xs ∨ x.o.rows < stepRows xs ∨
      pools.any (fun pl => x.q.cols % (pl.heads * pl.dim) != 0) then 0x0116
  else if x.q.sf ≠ 0 ∧ pools.any (fun pl => pl.dim % x.q.block != 0) then 0x0110
  else 0

/-! ## Scores -/

/-- One level of a pairwise tree: neighbours added in FP32. -/
def pairLevel : List Nat → List Nat
  | a :: b :: t => fAdd a b :: pairLevel t
  | l => l

/-- A fixed pairwise tree in FP32 with RNE (R191); `fuel` bounds its levels. -/
def pairSum : Nat → List Nat → Nat
  | 0, l => l.headD 0
  | fuel + 1, l => match l with
    | [] => 0
    | [x] => x
    | l => pairSum fuel (pairLevel l)

/-- The first level of the tree over exact products: each pair's exact sum rounded once. -/
def productLevel : List Val → List Nat
  | a :: b :: t => toF32 (a.add b) :: productLevel t
  | [a] => [toF32 a]
  | [] => []

/-- An FP32 number times an exact scale, rounded once. -/
def fScale (x : Nat) (sc : Val) : Nat := toF32 ((ofF32 x).mul sc)

/-- The block of a dot product (R191): the key's, or the query's where the key has none and the query is scaled (DEDUCED, log entry
35), and D where neither is. -/
def dotBlock (qsf qblock ksf kblock dim : Nat) : Nat :=
  if ksf ≠ 0 then kblock else if qsf ≠ 0 then qblock else dim

/-- A query–key dot product (R191): the elements of each with their scales. Where the query's blocks are shorter than the block
summed, which of their scales multiplies the sum is free (log entry 35); `sub` is the query's block, or the block itself. -/
def attDot (block sub : Nat) (q k : List (Val × Val)) : Nat :=
  let one : Val × Val := (.nan, .fin false 1 0)
  let pick := if sub < block then Config.querySub (block / sub) % (block / sub) * sub else 0
  let blocks := (chop block q.length q).zip (chop block k.length k)
  pairSum 9 (blocks.map (fun (x, y) =>
    let sum := pairSum 9 (productLevel ((x.zip y).map (fun (u, v) => u.1.mul v.1)))
    fScale (fScale sum (x.getD pick one).2) (y.headD one).2))

/-! ## Page updates -/

/-- The running maximum, sum and vector of a query row (R193). -/
structure Acc3 where
  m : Nat := 0xFF800000
  l : Nat := 0
  o : List Nat
  deriving DecidableEq, Repr

/-- 2^x (R147). -/
def fExp2 (x : Nat) : Nat := sfu 0 x

/-- The update of a page (R193) from the scores and values of the tokens that a row sees, in token order. -/
def Acc3.page (x : Acc3) (toks : List (Nat × List Nat)) : Acc3 :=
  if toks.isEmpty then x else
    let m' := toks.foldl (fun a t => fMax a t.1) x.m
    let f := fExp2 (fSub x.m m')
    let ps := toks.map (fun t => fExp2 (fSub t.1 m'))
    { m := m'
      l := fAdd (fMul x.l f) (fSum ps)
      o := x.o.mapIdx (fun d y => fAdd (fMul y f) (fSum ((ps.zip toks).map (fun (w, t) => fMul w (t.2.getD d 0))))) }

/-- The merge of a query row's chunks (R194); a single chunk takes w_0 = 1. -/
def mergeRow (xs : List Acc3) : List Nat :=
  let m := xs.foldl (fun a x => fMax a x.m) 0xFF800000
  let ws := if xs.length = 1 then [0x3F800000] else xs.map (fun x => fExp2 (fSub x.m m))
  let l := fSum ((xs.zip ws).map (fun (x, w) => fMul x.l w))
  let inv := sfu 2 l
  (List.range ((xs.headD { o := [] }).o.length)).map (fun d =>
    fMul (fSum ((xs.zip ws).map (fun (x, w) => fMul (x.o.getD d 0) w))) inv)

/-! ## Reading queries and pages -/

/-- A token's elements of one head with the scales that multiply at the end (R51, R191). -/
def headPairs (tag dim h : Nat) (x : List Nat × List Nat) : List (Val × Val) :=
  let block := 16 * 2 ^ bits tag 6 2
  ((x.1.drop (h * dim)).take dim).mapIdx (fun d code =>
    scalePair (bits tag 4 2) (x.2.getD ((h * dim + d) / block) 0) (elemVal (tag % 16) code))

/-- A token's values of one head, exact in FP32 (R191). -/
def headValues (tag dim h : Nat) (x : List Nat × List Nat) : List Nat :=
  let block := 16 * 2 ^ bits tag 6 2
  ((x.1.drop (h * dim)).take dim).mapIdx (fun d code =>
    toF32 (scaled (bits tag 4 2) (x.2.getD ((h * dim + d) / block) 0) (elemVal (tag % 16) code)))

/-- A page's tag and its tokens' keys and values, or why it cannot be read: an access, or a negative scale (R51). -/
structure PageData where
  tag : Nat
  ks  : List (List Nat × List Nat)
  vs  : List (List Nat × List Nat)
  deriving DecidableEq, Repr

/-- A page of a sequence read (R168, R198): 0x050A for a header that does not fit the sequence and the position. -/
def State.readPage (s : State) (a : Acc) (pl : Pool) (page layer count : Nat) : Except OpErr PageData :=
  let slot := pl.slotAt page layer
  match s.readDva a slot 64 with
  | .error e => .error (.access e)
  | .ok h =>
    let tag := num h 0 1
    if !pl.fits tag ∨ num h 2 1 ≠ layer ∨ num h 1 1 ≠ count then .error (.status 0x050A)
    else
      let one := fun (v : Bool) => collect (fun t => liftAcc (s.slotToken a pl slot tag t v)) (List.range count)
      match one false, one true with
      | .error e, _ => .error e
      | _, .error e => .error e
      | .ok ks, .ok vs =>
        if (ks ++ vs).any (fun x => x.2.any (scaleNegative (bits tag 4 2))) then .error (.status 0x0112)
        else .ok ⟨tag, ks, vs⟩

/-- A query row as codes and scale codes per element; 0x0112 for a negative scale (R51). -/
def State.queryRow (s : State) (a : Acc) (q : Tensor) (m : Nat) : Except OpErr (List (Val × Val)) :=
  match s.rowBytes a q none m, s.rowScales a q m with
  | .error e, _ => .error e
  | _, .error e => .error e
  | .ok b, .ok sc =>
    if sc.any (scaleNegative q.sf) then .error (.status 0x0112)
    else .ok (((unpack (elemBits q.elem) q.cols b).zip sc).map (fun (x, c) => scalePair q.sf c (elemVal q.elem x)))

/-- Whether a page or a query carries a NaN scale (R45, R51). -/
def PageData.special (d : PageData) : Bool :=
  (d.ks ++ d.vs).any (fun x => x.2.any (fun sc => scaleVal (bits d.tag 4 2) sc == .nan))

/-! ## Chunks -/

/-- Context pages of a sequence: ⌈(LENGTH + RUN) ÷ 16⌉. -/
def ctxPages (q : Seq) : Nat := ceilDiv (q.length + q.run) 16

/-- Whether a core takes attention chunks: its attention unit and its DMA engine serve (R337). -/
def State.attServes (s : State) (core : Nat) : Bool := s.fld (Reg.attFault core) 0 1 == 0 && s.dmaServes core

/-- CHUNK_PAGES, chosen where the command gives 0 (R192). -/
def State.chunkPages (s : State) (p : Nat) (x : AttArgs) (xs : List StepSeq) : Nat :=
  if x.chunk ≠ 0 then x.chunk
  else
    let units := ((s.coresOf p).filter (fun k => s.fld (Reg.attFault k) 0 1 == 0)).length
    max 8 (ceilDiv (xs.foldl (fun n y => max n (ctxPages y.seq)) 0) (2 * units))

/-- The bytes of scratch that a sequence's chunks take (R195). -/
def scratchShare (dim heads run chunks : Nat) : Nat := alignUp (4 * (dim + 2) * heads * run * chunks) 64

/-- The listed sequences as the dispenser holds them: chunks numbered in order, shares of the scratch buffer. -/
def State.attSeqs (s : State) (c : Cmd) (x : AttArgs) (cp : Nat) :
    List StepSeq → Nat → Nat → Except AccErr (List AttSeq)
  | [], _, _ => .ok []
  | y :: ys, first, share =>
    let q := y.seq
    let pl := s.pool c.part q.pool
    let chunks := if 16 < q.run then 0 else ceilDiv (ctxPages q) cp
    match s.pageList c q, s.attSeqs c x cp ys (first + chunks) (share + scratchShare pl.dim (x.heads pl) q.run chunks) with
    | .error e, _ => .error e
    | _, .error e => .error e
    | .ok pages, .ok rest =>
      .ok ({ pool := q.pool, length := q.length, run := q.run, pages, row := y.row, first, chunks, share } :: rest)

/-- The scratch bytes of a command. -/
def scratchNeed (s : State) (p : Nat) (x : AttArgs) (qs : List AttSeq) : Nat :=
  qs.foldl (fun n q => n + scratchShare (s.pool p q.pool).dim (x.heads (s.pool p q.pool)) q.run q.chunks) 0

/-- The part of a tensor that begins at row `m`, with `n` rows; blocks run along its rows. -/
def Tensor.rowsAt (t : Tensor) (m n : Nat) : Tensor :=
  { t with loc := t.loc.plus (m * t.stride), scale := t.scale + m * ceilDiv t.cols t.block, rows := n }

/-- Output rows stored (R194): at once, or with the rest of their scale block at the end where scales run across rows. -/
def State.putOut (s : State) (a : Acc) (o : Tensor) (row : Nat) (rows : List (List Nat)) :
    State × List (Nat × List Nat) × Nat × Nat × Option OpErr :=
  if o.sf ≠ 0 ∧ o.across then (s, rows.mapIdx (fun i r => (row + i, r)), 0, 0, none)
  else
    let t := o.rowsAt row rows.length
    let x := convTensor t (if bitB o.word 11 then .rtz else .rne) (defaultIeee o.elem) (rows.map (fun r => r.map ofF32))
    let w := s.storeConv a t none x
    (w.1, [], x.flags, x.lost, w.2)

/-- The collected rows of an output whose scales run across rows, stored at the end. -/
def State.putAcross (s : State) (a : Acc) (o : Tensor) (n : Nat) (outs : List (Nat × List Nat)) :
    State × Nat × Nat × Option OpErr :=
  if outs.isEmpty then (s, 0, 0, none)
  else
    let t := { o with rows := n }
    let rows := (List.range n).map (fun m => ((outs.find? (fun x => x.1 == m)).elim (List.replicate o.cols 0) (·.2)).map ofF32)
    let x := convTensor t (if bitB o.word 11 then .rtz else .rne) (defaultIeee o.elem) rows
    let w := s.storeConv a t none x
    (w.1, x.flags, x.lost, w.2)

def State.updAtt (s : State) (p cmd : Nat) (f : AttOp → AttOp) : State :=
  s.updPart p fun x => { x with att := x.att.map (fun o => if o.cmd = cmd then f o else o) }
/-- An attention command out of the dispenser; its chunks leave the cores that hold them. -/
def State.dropAtt (s : State) (p cmd : Nat) : State :=
  let s := s.updPart p fun x => { x with att := x.att.filter (fun o => o.cmd != cmd) }
  (s.coresOf p).foldl (fun s k =>
    if (s.core k).chunks.any (fun h => h.1 == cmd) then
      s.updCore k fun x => { x with chunks := x.chunks.filter (fun h => h.1 != cmd) }
    else s) s

/-- An attention command ended by an error. A bad header, or no unit left, leaves what is written (R197, R198); others leave partial
results. -/
def State.failAtt (s : State) (c : Cmd) (core : Nat) (o : Tensor) (e : OpErr) : State :=
  let s := s.dropAtt c.part c.id
  let s := if e = .status 0x050A ∨ e = .status 0x0830 then s else s.freeTensor (s.accOf c core false) o
  match s.cmd? c.id with
  | none => s
  | some c => match e with
    | .status st => s.endRun c st 0 none
    | .access er => (s.noteErr er c.queue c.seq.toNat).endRun c er.status 0 none
    | .block st i r => (s.noteBlock core i r 1).endRun c st 0 none

/-- The end of an attention command whose chunks are done (R192): 0x050F where a sequence was over the RUN limit. -/
def State.endAtt (s : State) (c : Cmd) (core : Nat) (x : AttArgs) (op : AttOp) : State :=
  let a := s.accOf c core false
  let n := op.seqs.foldl (fun n q => max n (q.row + q.run)) 0
  match s.putAcross a x.o n op.outs with
  | (s1, _, _, some e) => s1.failAtt c core x.o e
  | (s1, flags, lost, none) =>
    let s2 := (s1.noteConv core flags lost).dropAtt c.part c.id
    let st := c.convStatus (op.flags ||| flags)
    let s3 := if st.1 = 0x0111 then s2.freeTensor a x.o else s2
    match s3.cmd? c.id with
    | some c => if op.limit ∧ st.1 ≠ 0x0111 then s3.endRun c 0x050F 0 x.o.loc.watched else s3.endRun c st.1 st.2 x.o.loc.watched
    | none => s3

/-! ## ATTEND_DECODE -/

/-- A command's chunks enter the dispenser once the last chunk of the one before is granted, in dispatch order (R192, R315). -/
def State.attTurn (s : State) (c : Cmd) : Bool :=
  (s.part c.part).att.all (fun o => o.todo == []) &&
    !s.fe.cmds.any (fun d => d.id < c.id && d.part == c.part && d.op == 0x26 && d.phase == .started)

/-- The +0 rows of sequences over the RUN limit (R192). -/
def State.zeroRows (s : State) (a : Acc) (o : Tensor) : List AttSeq → List (Nat × List Nat) →
    State × List (Nat × List Nat) × Option OpErr
  | [], outs => (s, outs, none)
  | q :: qs, outs =>
    if q.run ≤ 16 then s.zeroRows a o qs outs
    else match s.putOut a o q.row (List.replicate q.run (List.replicate o.cols 0)) with
      | (s1, _, _, _, some e) => (s1, outs, some e)
      | (s1, more, _, _, none) => s1.zeroRows a o qs (outs ++ more)

/-- A checked command enters the dispenser, or ends at once where it has no chunk. -/
def State.beginAtt (s : State) (c : Cmd) (x : AttArgs) (cp : Nat) (qs : List AttSeq) : Res :=
  let core := 3 * s.firstSlice c.part
  let a := s.accOf c core false
  match s.zeroRows a x.o qs [] with
  | (s1, _, some e) => e.res s1 core
  | (s1, outs, none) =>
    let n := qs.foldl (fun n q => n + q.chunks) 0
    let op : AttOp := { cmd := c.id, seqs := qs, pages := cp, todo := List.range n, left := List.range n, outs,
                        limit := qs.any (fun q => 16 < q.run) }
    let s2 := (s1.updPart c.part fun p => { p with att := p.att ++ [op] }).updCmd c.id fun c => { c with phase := .running }
    if n = 0 then .more (s2.endAtt c core x op) else .more s2

/-- ATTEND_DECODE's checks and its entry into the dispenser (R191, R192, R195, R305, R337). -/
def attendDecode (s : State) (c : Cmd) : Res :=
  let p := c.part
  let core := 3 * s.firstSlice p
  if c.phase = .running then .more s
  else match s.parseAtt c with
    | .error st => .done s st 0 none
    | .ok x =>
      if x.prob ≠ 0 ∨ 65536 < x.chunk then .done s 0x0104 0 none
      else match s.stepList c x.list x.count with
        | .error e => e.res s core
        | .ok es =>
          let xs := s.stepSeqs p es [] 0
          let st := s.attCheck p x xs
          if st ≠ 0 then .done s st 0 none
          else if !(s.coresOf p).any s.attServes then .done s 0x0830 0 none
          else
            let cp := s.chunkPages p x xs
            match s.attSeqs c x cp xs 0 0 with
            | .error e => .fail s e
            | .ok qs =>
              if x.size < scratchNeed s p x qs then .done s 0x050C 0 none
              else if !s.attTurn c then .more s
              else s.beginAtt c x cp qs

/-- ATTEND_DECODE (R192). -/
def execAttendDecode (cmd : Nat) (s : State) : Answer := .next (runCmd s cmd [0x26] attendDecode)

/-! ## ATTENTION_CHUNK_DONE -/

/-- The tokens of a page that row `j` of a sequence sees (R192), as scores and values of one KV head. -/
def pageTokens (x : AttArgs) (pl : Pool) (q : AttSeq) (k j g : Nat) (qh : List (Val × Val)) (d : PageData) :
    List (Nat × List Nat) :=
  let seen := min d.ks.length (q.length + j + 1 - 16 * k)
  let block := dotBlock x.q.sf x.q.block (bits d.tag 4 2) (16 * 2 ^ bits d.tag 6 2) pl.dim
  (List.range seen).map (fun t =>
    (fMul (attDot block (if x.q.sf = 0 then block else x.q.block) qh (headPairs d.tag pl.dim g (d.ks.getD t ([], [])))) x.scale,
      headValues d.tag pl.dim g (d.vs.getD t ([], []))))

/-- Every query row of a sequence over the pages of a chunk (R193). -/
def chunkRows (x : AttArgs) (pl : Pool) (q : AttSeq) (qrows : List (List (Val × Val))) (pages : List (Nat × PageData)) :
    List Acc3 :=
  let heads := x.heads pl
  qrows.zipIdx.flatMap (fun (row, j) => (List.range heads).map (fun h =>
    pages.foldl (fun acc (k, d) =>
      acc.page (pageTokens x pl q k j (h / (heads / pl.heads)) ((row.drop (h * pl.dim)).take pl.dim) d))
      { o := List.replicate pl.dim 0 }))

/-- The sequence that holds a chunk. -/
def AttOp.seqOf (op : AttOp) (i : Nat) : Option AttSeq := op.seqs.find? (fun q => q.first ≤ i && i < q.first + q.chunks)

/-- The pages of a chunk read in order, as far as they can be read, and what stopped the reading: the page and the error (R198). -/
def State.chunkData (s : State) (a : Acc) (x : AttArgs) (pl : Pool) (q : AttSeq) :
    List Nat → List (Nat × PageData) × Option (Nat × OpErr)
  | [] => ([], none)
  | k :: ks =>
    match s.readPage a pl (q.pages.getD k 0) x.layer (min 16 (q.length + q.run - 16 * k)) with
    | .error e => ([], some (q.pages.getD k 0, e))
    | .ok d =>
      let r := s.chunkData a x pl q ks
      ((k, d) :: r.1, r.2)

/-- The context pages of a chunk (R192). -/
def AttOp.chunkPages (op : AttOp) (q : AttSeq) (i : Nat) : List Nat :=
  (List.range op.pages).filterMap (fun j =>
    let k := (i - q.first) * op.pages + j
    if 16 * k < q.length + q.run then some k else none)

/-- The 64-byte units of KV read for pages (R201). -/
def attUnits (pl : Pool) (ds : List (Nat × PageData)) : Nat :=
  ds.foldl (fun n d => n + slotBytes pl.heads pl.dim d.2.tag / 64) 0

/-- A finished chunk's rows as the dispenser keeps them. -/
def Acc3.toList (x : Acc3) : List Nat := x.m :: x.l :: x.o
def Acc3.ofList : List Nat → Acc3
  | m :: l :: o => { m, l, o }
  | _ => { o := [] }

/-- The merge of a sequence's chunks, row by row: whole output rows (R194). -/
def mergeSeq (heads run chunks first : Nat) (ps : List (Nat × List (List Nat))) : List (List Nat) :=
  (List.range run).map (fun j => (List.range heads).flatMap (fun h =>
    mergeRow ((List.range chunks).map (fun i =>
      Acc3.ofList (((ps.find? (fun p => p.1 == first + i)).elim [] (·.2)).getD (j * heads + h) [])))))

/-- A sequence whose last chunk is done: merged and written (R194). -/
def State.seqDone (s : State) (c : Cmd) (core : Nat) (x : AttArgs) (op : AttOp) (q : AttSeq) : State :=
  let a := s.accOf c core false
  let rows := mergeSeq (x.heads (s.pool c.part q.pool)) q.run q.chunks q.first op.partials
  match s.putOut a x.o q.row rows with
  | (s1, _, _, _, some e) => s1.failAtt c core x.o e
  | (s1, outs, flags, lost, none) =>
    let op' := { op with outs := op.outs ++ outs, flags := op.flags ||| flags,
                         partials := op.partials.filter (fun p => !(q.first ≤ p.1 && p.1 < q.first + q.chunks)) }
    let s2 := (s1.noteConv core flags lost).updAtt c.part c.id fun _ => op'
    if op'.left.isEmpty then s2.endAtt c core x op' else s2

/-- A chunk put back into the dispenser, which holds its chunks in ascending order (R197). While the partition drains it is
discarded (R330). -/
def State.returnChunks (s : State) (p : Nat) (hs : List (Nat × Nat)) : State :=
  if s.pstate p = 4 then s
  else hs.foldl (fun s h => s.updAtt p h.1 fun o =>
    { o with todo := (o.todo ++ [h.2]).mergeSort (fun a b => decide (a ≤ b)) }) s

/-- Attention commands whose chunks no core is left to take end with 0x0830 (R197). -/
def State.endNoAttention (s : State) (p : Nat) : State :=
  if (s.coresOf p).any s.attServes then s
  else (s.part p).att.foldl (fun s o =>
    if o.todo = [] ∨ (s.coresOf p).any (fun k => (s.core k).chunks.any (fun h => h.1 == o.cmd)) then s
    else match s.cmd? o.cmd with
      | none => s
      | some c => match s.parseAtt c with
        | .ok x => s.failAtt c (3 * s.firstSlice p) x.o (.status 0x0830)
        | .error _ => s) s

/-- The core's first chunk no longer held. -/
def State.popChunk (s : State) (core : Nat) : State := s.updCore core fun k => { k with chunks := k.chunks.drop 1 }

/-- A finished chunk's partials as the bytes of its scratch: (o, m, l) for each query row (R193). -/
def Acc3.scratch (x : Acc3) : List Byte := (x.o ++ [x.m, x.l]).flatMap (leBytes 4)

/-- A chunk whose work checked (R193, R197): its partials go to the sequence's share of the scratch buffer, chunk after chunk and row
after row (DESIGN CHOICE, log entry 67), and the last chunk of a sequence merges it. -/
def State.chunkPasses (s : State) (c : Cmd) (core : Nat) (x : AttArgs) (op : AttOp) (i : Nat) (q : AttSeq) : State :=
  let pl := s.pool c.part q.pool
  let a := { s.poolAcc c pl with source := core }
  let r := s.chunkData a x pl q (op.chunkPages q i)
  let s := s.count core 0x46 (attUnits pl r.1)
  match r.2, collect (s.queryRow (s.accOf c core false) x.q) ((List.range q.run).map (q.row + ·)) with
  | some (page, e), _ =>
    let s := if e = .status 0x050A then s.setReg (Reg.attErr core) (BitVec.ofNat 32 (page % 2 ^ 24 + 2 ^ 31)) else s
    s.failAtt c core x.o e
  | _, .error e => s.failAtt c core x.o e
  | none, .ok qs =>
    let special := if r.1.any (fun d => d.2.special) ∨ s.scaleFlag (s.accOf c core false) (x.q.rowsAt q.row q.run) ≠ 0 then
      scaleSpecial else 0
    let rows := chunkRows x pl q qs r.1
    let op' := { op with left := op.left.filter (· != i), partials := op.partials ++ [(i, rows.map Acc3.toList)],
                         flags := op.flags ||| special }
    let bs := rows.flatMap Acc3.scratch
    match ((s.noteConv core special 0).popChunk core).writeDva (s.accOf c core false)
        (x.scratch + q.share + (i - q.first) * bs.length) bs with
    | (s1, some e) => s1.failAtt c core x.o (.access e)
    | (s1, none) =>
      let s2 := (s1.updAtt c.part c.id fun _ => op').progress core 2
      if (List.range q.chunks).all (fun k => op'.partials.any (fun p => p.1 == q.first + k)) then s2.seqDone c core x op' q
      else s2

/-- A page update run again (R197, R201): byte 28 counts it, and ATT_REPLAY. -/
def State.attAgain (s : State) (c : Cmd) (core : Nat) : State :=
  (s.updCmd c.id fun c => { c with replays := c.replays + 1 }).count core 0x48 1

/-- A second mismatch (R197, R335): the unit is FAULTY, and its chunks go back; with no unit left the command ends. How many of the
chunk's pages the unit had read is free. -/
def State.attBroken (s : State) (c : Cmd) (core : Nat) (x : AttArgs) (op : AttOp) (i : Nat) (q : AttSeq) : State :=
  let pl := s.pool c.part q.pool
  let ks := op.chunkPages q i
  let r := s.chunkData { s.poolAcc c pl with source := core } x pl q (ks.take (1 + Config.freeNat s.free core % ks.length))
  let s := ((s.attAgain c core).draw.count core 0x46 (attUnits pl r.1)).setFld (Reg.attFault core) 0 1 1
  let s := s.logCore core { kind := 0x1B, severity := 2, queue := c.queue, submit := c.seq.toNat }
  let held := (s.core core).chunks
  ((s.updCore core fun k => { k with chunks := [] }).returnChunks c.part held).endNoAttention c.part

/-- A page update whose repeat checked (R197, R335). -/
def State.attReplay (s : State) (c : Cmd) (core : Nat) : State :=
  ((s.attAgain c core).bump (Reg.attReplays core) 0 32 1).logCore core
    { kind := 0x1A, severity := 1, queue := c.queue, submit := c.seq.toNat }

/-- Words of KV staging found uncorrectable and loaded again from HBM: each counts as a replay (R335, R338). -/
def State.attRefetch (s : State) (c : Cmd) (core : Nat) (offs : List Nat) : State :=
  (offs.filter (fun o => 0xA00000 ≤ o && o < 0xC00000)).foldl (fun s o => (s.attAgain c core).logCore core
    { kind := 0x05, severity := 1, queue := c.queue, submit := c.seq.toNat, address := o }) s

/-- The chunk that a core runs. -/
def State.attRuns (s : State) (core : Nat) : Option (Cmd × AttArgs × AttOp × Nat × AttSeq) :=
  match (s.core core).chunks, s.coreOwner core with
  | (cmd, i) :: _, some p =>
    match s.cmd? cmd, (s.part p).att.find? (fun o => o.cmd == cmd) with
    | some c, some op => match s.parseAtt c, op.seqOf i with
      | .ok x, some q => some (c, x, op, i, q)
      | _, _ => none
    | _, _ => none
  | _, _ => none

/-- ATTENTION_CHUNK_DONE (R192, R197): the core's chunk comes to its check. -/
def execAttentionChunkDone (core : Nat) (chk : Check) (refetch : List Nat) (s : State) : Answer :=
  if 24 ≤ core then .next s
  else match s.attRuns core with
    | none => .next s
    | some (c, x, op, i, q) =>
      let s1 := s.attRefetch c core refetch
      when (s.canRun c) s ((match chk with
        | .ok => s1.chunkPasses c core x op i q
        | .transient => (s1.attReplay c core).chunkPasses c core x op i q
        | .permanent => s1.attBroken c core x op i q
        | .path id false => (s1.pathReplay c core id).chunkPasses c core x op i q
        | .path id true => (s1.pathBroken c core id).failAtt c core x.o (.status 0x0801)).endNoAttention c.part)

/-! ## Requests and steals of chunks -/

/-- The lowest chunk left in a partition's attention dispenser (R192, R315). -/
def lowestChunk : List AttOp → Option (Nat × Nat)
  | [] => none
  | o :: os => match o.todo with
    | i :: _ => some (o.cmd, i)
    | [] => lowestChunk os

/-- A chunk requested (R92, R192): a core with a working unit that holds fewer than two is granted the lowest one left. -/
def State.requestChunk (s : State) (core p : Nat) : State :=
  match lowestChunk (s.part p).att with
  | none => s
  | some (cmd, i) =>
    match s.cmd? cmd with
    | none => s
    | some c =>
      if s.canRun c && !s.coreHeld c core && s.attServes core && (s.core core).chunks.length < 2 then
        let s := (s.updAtt p cmd fun o => { o with todo := o.todo.filter (· != i) }).touch cmd core
        (if (s.core core).chunks = [] then s.progress core 2 else s).updCore core fun k =>
          { k with chunks := k.chunks ++ [(cmd, i)] }
      else s

/-- A chunk taken over (R93, R192): with the dispenser empty, an idle core takes another core's second chunk. -/
def State.stealChunk (s : State) (core victim p : Nat) : State :=
  match (s.core victim).chunks with
  | [h0, h1] =>
    if s.coreOwner victim == some p && (lowestChunk (s.part p).att).isNone && s.attServes core && (s.core core).chunks == [] &&
        (s.cmd? h1.1).any (fun c => s.canRun c && !s.coreHeld c core) then
      (((s.updCore victim fun k => { k with chunks := [h0] }).touch h1.1 core).progress core 2).updCore core fun k =>
        { k with chunks := [h1] }
    else s
  | _ => s

end Sys2Proof.Machine
end

