-- ==== Sys2Proof/Machine/Tiles.lean ====
section
/-!
DEFINITION. The fabric at work: commands enter the dispenser (R94, R103, R135), cores request, steal and return tiles (R92, R93,
R336), passes check, replay, split and skip (R84, R86 to R89, R127, R339), tiles and commands end (R69, R87, R94), and the array
fences of R102.
-/
namespace Sys2Proof.Machine

/-! ## Arrays and registers -/

/-- The active arrays of a core (R102). -/
def State.arrays (s : State) (core : Nat) : List Nat := ones (s.fld (Reg.arrayStatus core) 0 4) 4

/-- TILES_HELD and PASS_BUSY (R102): a pass is in the arrays from the entry of a tile until the tile has left them, loads between its
passes included (DESIGN CHOICE, log entry 57). -/
def State.syncArray (s : State) (core : Nat) : State :=
  let ts := (s.core core).tiles
  (s.setFld (Reg.arrayStatus core) 4 2 ts.length).setFld (Reg.arrayStatus core) 6 1 (b2n (ts.any (·.live)))

def State.setTiles (s : State) (core : Nat) (ts : List Tile) : State :=
  (s.updCore core fun k => { k with tiles := ts }).syncArray core

/-- Whether two records are of the same tile. -/
def Tile.same (t u : Tile) : Bool := t.cmd == u.cmd && t.num == u.num

/-- A held tile replaced by what it has become. -/
def State.putTile (s : State) (core : Nat) (t : Tile) : State :=
  s.setTiles core ((s.core core).tiles.map (fun y => if y.same t then t else y))

def State.updArr (s : State) (core a : Nat) (f : ArraySt → ArraySt) : State :=
  s.updCore core fun k => { k with arr := k.arr.upd (fun _ => {}) a f }

/-- What an array of a core holds. -/
def State.arr (s : State) (core a : Nat) : ArraySt := (s.core core).arr.get (fun _ => {}) a

/-- A fabric command in its partition's dispenser. -/
def State.fabOp (s : State) (p cmd : Nat) : Option FabOp := (s.part p).fab.find? (fun o => o.cmd == cmd)
def State.updFab (s : State) (p cmd : Nat) (f : FabOp → FabOp) : State :=
  s.updPart p fun x => { x with fab := x.fab.map (fun o => if o.cmd = cmd then f o else o) }

/-! ## Stores and the end of a fabric command -/

/-- A fabric command gone from the dispenser and from every core, with the blocks that waited for it. -/
def State.dropFab (s : State) (p cmd : Nat) : State :=
  let s := s.updPart p fun x => { x with fab := x.fab.filter (fun o => o.cmd != cmd) }
  (s.coresOf p).foldl (fun s k =>
    if (s.core k).tiles.any (fun t => t.cmd == cmd) then
      (s.updCore k fun x => { x with lanes := x.lanes.filter (fun l => 8 ≤ l.1) }).setTiles k
        ((s.core k).tiles.filter (fun t => t.cmd != cmd))
    else s) s

/-- The rows that a fabric command writes: all of D's, or those of its experts' lists (R135). -/
def FabArgs.span (x : FabArgs) (o : FabOp) : Nat × Nat :=
  if x.grouped then
    ((o.experts.head?).elim 0 (fun e => e.2.1), (o.experts.getLast?).elim 0 (fun e => e.2.1 + e.2.2))
  else (0, x.m)

/-- The rows that are stored together: one, or those that share a scale (R50, R53), cut to the rows written. -/
def FabArgs.rowUnit (x : FabArgs) (o : FabOp) (r : Nat) : Nat × Nat :=
  if x.d.sf = 0 ∨ !x.d.across then (r, 1)
  else
    let b := x.d.block
    let lo := max (r / b * b) (x.span o).1
    (lo, min (r / b * b + b) (x.span o).2 - lo)

/-- A rectangle's bytes in D's scale plane (R52): where they start, and how many, for each of its rows, or for its block of
rows. -/
def FabArgs.scaleRuns (x : FabArgs) (row rows col cols : Nat) : List (Nat × Nat) :=
  if x.d.sf = 0 then []
  else if x.d.across then [(x.d.scale + x.d.scaleIdx row col, cols)]
  else (List.range rows).map (fun i => (x.d.scale + x.d.scaleIdx (row + i) col, ceilDiv cols x.d.block))

/-- Where the data of a rectangle's row lies, and its bytes. -/
def FabArgs.dataRun (x : FabArgs) (row col cols : Nat) : Loc × Nat :=
  (x.d.loc.plus (row * x.d.stride + col * elemBits x.d.elem / 8), ceilDiv (cols * elemBits x.d.elem) 8)

/-- The parts of D that a failed command has not stored, left with partial results (R139, R214). -/
def State.freeRest (s : State) (a : Acc) (x : FabArgs) (o : FabOp) : State :=
  if x.d.packed then s
  else
    let span := x.span o
    (List.range (span.2 - span.1)).foldl (fun s i => (List.range x.nTiles).foldl (fun s cb =>
      let r := span.1 + i
      let u := x.rowUnit o r
      let cols := min 128 (x.n - 128 * cb)
      if o.stored.any (fun y => y.1 ≤ r && r < y.1 + y.2.1 && y.2.2 == 128 * cb) then s
      else
        let d := x.dataRun r (128 * cb) cols
        let s := s.fillFree a d.1 d.2
        if u.1 = r then (x.scaleRuns r 1 (128 * cb) cols).foldl (fun s y => s.fillFree a (.dva y.1) y.2) s else s) s) s

/-- A fabric command ended by an error: its tiles are dropped, what it has stored stays, and the rest of its destination holds
partial results (R113, R139, R214). -/
def State.failFab (s : State) (c : Cmd) (core : Nat) (x : FabArgs) (e : OpErr) : State :=
  let s := match s.fabOp c.part c.id with
    | some o => s.freeRest (s.accOf c core false) x o
    | none => s
  let s := s.dropFab c.part c.id
  match s.cmd? c.id with
  | none => s
  | some c => match e with
    | .status st => s.endRun c st 0 none
    | .access er => (s.noteErr er c.queue c.seq.toNat).endRun c er.status 0 none
    | .block st i r => (s.noteBlock core i r 1).endRun c st 0 none

/-- The gate weight of an output row, if GATE_SCALE multiplies by it (R135). -/
def State.gateOf (s : State) (a : Acc) (x : FabArgs) (r : Nat) : Except OpErr (Option Nat) :=
  if !x.gate then .ok none
  else match s.readDva a (x.tokens + 8 * r + 4) 4 with
    | .error e => .error (.access e)
    | .ok b => .ok (some (leNat b))

/-- A finished tile's output after GATE_SCALE (R135). -/
def State.gated (s : State) (a : Acc) (x : FabArgs) (p : Patch) : Except OpErr Patch :=
  match collect (fun i => s.gateOf a x (p.row + i)) (List.range p.rows) with
  | .error e => .error e
  | .ok gs => .ok { p with vals := p.vals.mapIdx (fun i v => match gs.getD (i / p.cols) none with
      | some g => fMul v g
      | none => v) }

/-- One output element of the finished tiles. -/
def patchAt (ps : List Patch) (r n : Nat) : Nat :=
  match ps.find? (fun p => p.row ≤ r && r < p.row + p.rows && p.col ≤ n && n < p.col + p.cols) with
  | some p => p.vals.getD ((r - p.row) * p.cols + (n - p.col)) 0
  | none => 0

/-- Whether the finished tiles hold every row of a unit in a column. -/
def unitReady (ps : List Patch) (u : Nat × Nat) (col : Nat) : Bool :=
  (List.range u.2).all (fun i => ps.any (fun p => p.row ≤ u.1 + i && u.1 + i < p.row + p.rows && p.col == col))

/-- Ranges written one after the other; the first error ends the write. -/
def State.writeRuns (s : State) (a : Acc) : List (Loc × List Byte) → State × Option AccErr
  | [] => (s, none)
  | (l, bs) :: rest =>
    match s.writeLoc a l bs with
    | (s', some e) => (s', some e)
    | (s', none) => s'.writeRuns a rest

/-- A rectangle of finished outputs converted and stored in D (R69), its flags noted on the core and in the command. -/
def State.storeUnit (s : State) (c : Cmd) (core : Nat) (x : FabArgs) (ps : List Patch) (u : Nat × Nat) (col cols : Nat) :
    State × Option OpErr :=
  let vals := (List.range u.2).map (fun i => (List.range cols).map (fun j => ofF32 (patchAt ps (u.1 + i) (col + j))))
  let conv := convTensor { x.d with rows := u.2, cols } x.rnd x.ieee vals
  let data := conv.codes.mapIdx (fun i row => ((x.dataRun (u.1 + i) col cols).1, pack (elemBits x.d.elem) row))
  let runs := x.scaleRuns u.1 u.2 col cols
  let per := if x.d.across then cols else ceilDiv cols x.d.block
  let scales := runs.mapIdx (fun i y => ((.dva y.1 : Loc), ((conv.scales.drop (i * per)).take per).map (BitVec.ofNat 8)))
  match (s.noteConv core conv.flags conv.lost).writeRuns (s.accOf c core false) (data ++ scales) with
  | (s1, some e) => (s1, some (.access e))
  | (s1, none) => (s1.updFab c.part c.id fun o =>
      { o with stored := o.stored ++ [(u.1, u.2, col)], flags := o.flags ||| conv.flags }, none)

/-- The units of rows that the newest finished tile completes. -/
def FabArgs.readyUnits (x : FabArgs) (o : FabOp) (p : Patch) : List (Nat × Nat) :=
  (((List.range p.rows).map (fun i => x.rowUnit o (p.row + i))).eraseDups).filter (fun u => unitReady o.patches u p.col)

/-- The listed units stored in order. -/
def State.storeUnits' (s : State) (c : Cmd) (core : Nat) (x : FabArgs) (ps : List Patch) (col cols : Nat) :
    List (Nat × Nat) → State × Option OpErr
  | [] => (s, none)
  | u :: us =>
    match s.storeUnit c core x ps u col cols with
    | (s1, some e) => (s1, some e)
    | (s1, none) => s1.storeUnits' c core x ps col cols us

/-- A compressed D stored whole, once its last tile is finished (R122 to R124). -/
def State.storePacked (s : State) (c : Cmd) (core : Nat) (x : FabArgs) (o : FabOp) : State × Option OpErr :=
  let a := s.accOf c core false
  match s.openTensor a x.d with
  | .error e => (s, some e)
  | .ok ct =>
    let vals := (List.range x.d.rows).map (fun r => (List.range x.n).map (fun n => ofF32 (patchAt o.patches r n)))
    let conv := convTensor x.d x.rnd x.ieee vals
    let s := (s.noteConv core conv.flags conv.lost).updFab c.part c.id fun o => { o with flags := o.flags ||| conv.flags }
    s.storeConv a x.d ct conv

/-- The last tile is written: the command completes (R94; log entry 15), with partial results where STRICT_NAN ends it (R46). -/
def State.endFab (s : State) (c : Cmd) (core : Nat) (x : FabArgs) (flags : Nat) : State :=
  let st := c.convStatus flags
  let s := s.dropFab c.part c.id
  let s := if st.1 = 0x0111 then s.freeTensor (s.accOf c core false) x.d else s
  match s.cmd? c.id with
  | some c => s.endRun c st.1 st.2 (if x.d.packed then none else x.d.loc.watched)
  | none => s

/-- A tile written to the output buffer and stored as far as D's layout lets it (R69, R87): counted, and the command ended with its
last tile. -/
def State.tileDone (s : State) (c : Cmd) (core : Nat) (x : FabArgs) (t : Tile) : State :=
  match s.gated (s.accOf c core false) x { row := t.row, rows := t.rows, col := t.col, cols := t.cols, vals := t.done } with
  | .error e => s.failFab c core x e
  | .ok p =>
    let s := (s.count core 0x18 1).setTiles core ((s.core core).tiles.filter (fun y => !y.same t))
    let s := s.updFab c.part c.id fun o => { o with left := o.left - 1, patches := o.patches ++ [p] }
    match s.fabOp c.part c.id with
    | none => s
    | some o =>
      let r := if !x.d.packed then s.storeUnits' c core x o.patches p.col p.cols (x.readyUnits o p)
        else if o.left = 0 then s.storePacked c core x o else (s, none)
      match r with
      | (s1, some e) => s1.failFab c core x e
      | (s1, none) => match s1.fabOp c.part c.id with
        | some o => if o.left = 0 then s1.endFab c core x o.flags else s1
        | none => s1

/-! ## The rows of a pass -/

/-- The rows of a tile's running group (R90): the group holds up to 128 rows for each array. -/
def Tile.groupRows (t : Tile) : Nat := min (128 * t.arrs.length) (t.rows - 128 * t.arrs.length * t.group)

/-- The row slots of the running group: the rows of the fullest array (R90). -/
def Tile.slots (t : Tile) : Nat := ceilDiv t.groupRows t.arrs.length

/-- The slot at which the running part of the pass ends: the next split, or the end of the group (R84). -/
def Tile.hi (t : Tile) : Nat := (t.cuts.head?).getD t.slots

/-- The first output row of the running group. -/
def Tile.first (t : Tile) : Nat := t.row + 128 * t.arrs.length * t.group

/-- The rows, counted in the group, that array number `q` of those dealt to streams in slots `lo` to `hi - 1` (R76). -/
def Tile.dealt (t : Tile) (q lo hi : Nat) : List Nat :=
  ((List.range (hi - lo)).map (fun i => (lo + i) * t.arrs.length + q)).filter (· < t.groupRows)

/-- The rows of the running part, counted in the group. -/
def Tile.partRows (t : Tile) : List Nat :=
  (List.range t.groupRows).filter (fun i => t.lo ≤ i / t.arrs.length && i / t.arrs.length < t.hi)

/-- The activation rows that some rows of the group stream; one that cannot be gathered has no number. -/
def State.actsOf (s : State) (a : Acc) (x : FabArgs) (t : Tile) (rows : List Nat) : List Nat :=
  rows.map (fun i => match s.actRow a x (t.first + i) with
    | .ok m => m
    | .error _ => x.m)

/-- The blocks of a row window, in lane order (R74, R106). -/
def windowBlocks (x : FabArgs) (ct : CTensor) (m kt : Nat) : List Nat :=
  let w := elemBits x.a.elem
  let b0 := kt * x.kt * w / 8
  let n := ceilDiv ((min x.k ((kt + 1) * x.kt) - kt * x.kt) * w) 8
  (List.range (ceilDiv n 128)).map (fun i => m * ct.perRow + b0 / 128 + i)

/-- The TYPE of a block's directory entry; one that R113 calls invalid, or that cannot be read, counts as TYPE 3. -/
def State.blockType (s : State) (a : Acc) (ct : CTensor) (i : Nat) : Nat :=
  match s.readDva a (ct.dir + 4 * i) 4 with
  | .ok b =>
    let e := leNat b
    if bitB e 31 || (bits e 29 2 == 0 && bits e 0 28 != 0) then 3 else bits e 29 2
  | .error _ => 3

/-- Whether a scale plane's bytes hold a NaN scale. -/
def nanScale (sf : Nat) : Except AccErr (List Byte) → Bool
  | .ok b => b.any (fun y => scaleVal sf y.toNat == .nan)
  | .error _ => false

/-- The scale bytes that cover a row window of the activation. -/
def State.rowScaleBytes (s : State) (a : Acc) (x : FabArgs) (m kt : Nat) : Except AccErr (List Byte) :=
  let k1 := min x.k ((kt + 1) * x.kt)
  let first := x.a.scaleIdx m (kt * x.kt)
  s.readDva a (x.a.scale + first) (x.a.scaleIdx m (k1 - 1) - first + 1)

/-- Whether the next pass of a tile is skipped (R127): every row window of its group is a ZERO block without a NaN scale, and a
stationary tile that could hold an infinity or a NaN holds none. -/
def State.skips (s : State) (a : Acc) (x : FabArgs) (t : Tile) (kt : Nat) : Bool :=
  match s.openTensor a x.a with
  | .ok (some ct) =>
    (s.actsOf a x t (List.range t.groupRows)).all (fun m =>
      m < x.m && (windowBlocks x ct m kt).all (fun i => s.blockType a ct i == 0) &&
        (x.a.sf == 0 || (match s.rowScaleBytes a x m kt with
          | .ok sc => sc.all (fun b => scaleVal x.a.sf b.toNat != .nan)
          | .error _ => false))) &&
    (!([1, 2, 3, 4] : List Nat).contains x.w.elem || (match s.passCols a x t kt with
      | .ok cs => cs.1.all (fun w => w.all (fun v => (scalePair x.srfFmt v.1 v.2).1.isFin))
      | .error _ => false))
  | _ => false

/-! ## A pass begins -/

/-- The tables of the coded blocks that a lane of an array delivers to the rest of the pass (R74, R118). -/
def State.laneTables (s : State) (a : Acc) (x : FabArgs) (ct : CTensor) (t : Tile) (kt q l : Nat) : List Nat :=
  (s.actsOf a x t (t.dealt q t.lo t.slots)).filterMap (fun m =>
    match (windowBlocks x ct m kt)[l]? with
    | some i => s.entryTable a ct i
    | none => none)

/-- The expander lanes of a core's arrays set to work on a pass; those of arrays without it stand still. -/
def State.runExpanders (s : State) (a : Acc) (core : Nat) (x : FabArgs) (t : Tile) (kt : Nat) : State :=
  let s := s.updCore core fun k => { k with lanes := k.lanes.filter (fun l => 8 ≤ l.1) }
  match s.openTensor a x.a with
  | .ok (some ct) =>
    t.arrs.zipIdx.foldl (fun s y => [0, 1].foldl (fun s l =>
      s.runLane core (2 * y.1 + l) (s.laneTables a x ct t kt y.2 l)) s) s
  | _ => s

/-- A stationary tile loaded into the shadow bank of every array of a tile, and swapped in at the pass boundary (R61, R77, R78). -/
def State.loadArrays (s : State) (core : Nat) (t : Tile) (st : Stat) : State :=
  t.arrs.foldl (fun s a => s.updArr core a fun y =>
    { y with stat := y.stat.set (fun _ => {}) (1 - y.active) st, active := 1 - y.active }) s

/-- A pass begins, or begins again (R77, R88): its stationary tile loads with the flags and rounded elements of its loading (R45,
R54, R58), and its expanders start. -/
def State.beginPass (s : State) (c : Cmd) (core : Nat) (x : FabArgs) (t : Tile) (kt : Nat) : State :=
  let a := s.accOf c core false
  match s.passCols a x t kt with
  | .error e => s.failFab c core x e
  | .ok (cols, fl) =>
    let flags := fl ||| (if x.wScale != 0 && cols.any (fun w => w.any (fun v => scaleVal x.wScale v.1 == .nan)) then scaleSpecial
      else 0)
    let loss := if x.mode = 16 then alignLoss x.group (cols.map (fun w => w.map (·.2))) else 0
    let s := ((s.noteConv core flags 0).bump (Reg.alignLoss core) 0 32 loss).updFab c.part c.id fun o =>
      { o with flags := o.flags ||| flags }
    ((s.loadArrays core t (loadStat x cols)).putTile core t).runExpanders a core x t kt

/-- The outputs of a tile's finished row group, row by row, from the committed banks (R81, R87). A group without a pass is +0
(R99, R128). -/
def State.groupOut (s : State) (core : Nat) (t : Tile) : List Nat :=
  (List.range t.groupRows).flatMap (fun i => (List.range t.cols).map (fun j =>
    match t.bank with
    | none => 0
    | some b => ((s.arr core (t.arrs.getD (i % t.arrs.length) 0)).banks.get (fun _ => []) b).getD
        (i / t.arrs.length * t.cols + j) 0 % 2 ^ 32))

/-- The banks of a tile's arrays freed (R82). -/
def State.freeBanks (s : State) (core : Nat) (arrs : List Nat) : State :=
  arrs.foldl (fun s a => s.updArr core a fun y => { y with banks := [] }) s

/-- A tile moved past the passes it skips, the groups it has finished, and to its end (R90, R99, R127, R128). `fuel` bounds the
passes and groups. The bitmap's empty stationary tiles are skipped, and counted, once in each row group, since each group runs every
pass of the reduction (DESIGN CHOICE, log entry 58). -/
def State.settle (s : State) (c : Cmd) (core : Nat) (x : FabArgs) : Nat → Tile → State
  | 0, _ => s
  | fuel + 1, t =>
    match t.kts[t.pass]? with
    | some kt =>
      if s.skips (s.accOf c core false) x t kt then (s.count core 0x27 1).settle c core x fuel { t with pass := t.pass + 1 }
      else s.beginPass c core x t kt
    | none =>
      let t := { t with done := t.done ++ s.groupOut core t }
      let s := s.freeBanks core t.arrs
      if t.rows ≤ 128 * t.arrs.length * (t.group + 1) then s.tileDone c core x t
      else (s.count core 0x19 (x.kTiles - t.kts.length)).settle c core x fuel
        { t with group := t.group + 1, pass := 0, bank := none }

/-- The passes and groups that a tile can still go through. -/
def Tile.fuel (t : Tile) : Nat := (t.kts.length + 2) * (ceilDiv t.rows 128 + 1)

/-- The flags of re-blocking the activation rows of a tile, where the tensor is shared across the reduction (R45, R54). -/
def State.actFlags (s : State) (a : Acc) (x : FabArgs) (t : Tile) : Except OpErr Nat :=
  if x.a.sf = 0 ∨ !x.a.across ∨ t.kts = [] then .ok 0
  else match s.openTensor a x.a with
    | .error e => .error e
    | .ok ct =>
      match collect (fun i => match s.actRow a x (t.row + i) with
          | .error e => .error e
          | .ok m => s.readRow a x.a ct m) (List.range t.rows) with
      | .error e => .error e
      | .ok rows => .ok (rows.foldl (fun f r => f ||| (reblock x.a r).2) 0)

/-- The head tile of a core entered into its arrays (R90, R98, R99): the arrays that its rows are dealt to are those active now, and
stay so to its end (R76). -/
def State.enterTile (s : State) (c : Cmd) (core : Nat) (x : FabArgs) (t : Tile) : State :=
  let a := s.accOf c core false
  match s.presentTiles a x t.expert (t.col / 128) with
  | .error e => s.failFab c core x (.access e)
  | .ok kts =>
    let t := { t with live := true, kts, arrs := s.arrays core }
    match s.actFlags a x t with
    | .error e => s.failFab c core x e
    | .ok flags =>
      let s := ((s.noteConv core flags 0).count core 0x19 (x.kTiles - kts.length)).progress core 0
      let s := s.updFab c.part c.id fun o => { o with flags := o.flags ||| flags }
      (s.putTile core t).settle c core x t.fuel t

/-- The next held tile enters the arrays once the one before has left them, if no software fence waits for the boundary (R92,
R102). -/
def State.enterHead (s : State) (core : Nat) : Nat → State
  | 0 => s
  | fuel + 1 =>
    match (s.core core).tiles.head? with
    | some t =>
      if !t.live && s.arrays core != [] && (s.core core).fencePend == 0 then
        match s.cmd? t.cmd with
        | some c => match s.parseFab c with
          | .ok x => (s.enterTile c core x t).enterHead core fuel
          | .error _ => s
        | none => s
      else s
    | none => s

/-! ## FABRIC_MATMUL and GROUPED_MATMUL -/

/-- The destination of a rectangle of a fabric command's outputs: the rows of D it lies in, and its scales (R50, R52). -/
def FabArgs.rectRngs (x : FabArgs) (asid row rows : Nat) : List Rng :=
  let data := match x.d.loc with
    | .dva a => [⟨false, asid, a + row * x.d.stride, (rows - 1) * x.d.stride + x.d.rowBytes, true⟩]
    | .sram k o => [⟨true, k, o + row * x.d.stride, (rows - 1) * x.d.stride + x.d.rowBytes, true⟩]
  data ++ (if x.d.sf = 0 then [] else
    [⟨false, asid, x.d.scale + x.d.scaleIdx row 0, x.d.scaleIdx (row + rows) 0 + x.d.cols - x.d.scaleIdx row 0, true⟩])

/-- What the tiles in flight of a fabric command still have to write (R94): those that cores hold, those that wait for the rest of a
scale block, and the whole of a compressed D. -/
def State.tileRngs (s : State) (d : Cmd) (o : FabOp) : List Rng :=
  match s.parseFab d with
  | .error _ => []
  | .ok x =>
    if x.d.packed then (s.uses d).2.filter (·.write)
    else
      ((s.coresOf d.part).flatMap (fun k => (s.core k).tiles.filter (fun t => t.cmd == d.id))).flatMap (fun t =>
        x.rectRngs d.asid t.row t.rows) ++
      (o.patches.filter (fun p => !o.stored.any (fun y => y.1 == p.row && y.2.2 == p.col))).flatMap (fun p =>
        x.rectRngs d.asid p.row p.rows)

/-- Whether the tiles of a fabric command must stay out of the dispenser for an earlier fabric command: an operand overlaps what a tile
in flight has to write (R94), or its destination overlaps what the earlier command reads (R233). -/
def State.tileHeld (s : State) (c : Cmd) (o : FabOp) : Bool :=
  match s.cmd? o.cmd with
  | none => false
  | some d =>
    let u := (s.uses c).2
    u.any (fun r => (s.tileRngs d o).any r.clash) ||
      (u.filter (·.write)).any (fun r => ((s.uses d).2.filter (fun q => !q.write)).any r.clash)

/-- Whether the fabric may take a command: the last tile of every command before it has been granted (R94), in dispatch
order, and no tile in flight holds it back. -/
def State.fabTurn (s : State) (c : Cmd) : Bool :=
  (s.part c.part).fab.all (fun o => o.next == o.total && o.returned == [] && !s.tileHeld c o) &&
    !s.fe.cmds.any (fun d => d.id < c.id && d.part == c.part && (d.op == 0x20 || d.op == 0x21 || d.op == 0x25) &&
      d.phase == .started)

/-- Whether every array of every core of a partition is fenced (R103). -/
def State.noArray (s : State) (p : Nat) : Bool := (s.coresOf p).all (fun k => s.arrays k == [])

/-- The experts with rows, with the checks of R135 on OFFSETS. -/
def State.readExperts (s : State) (a : Acc) (x : FabArgs) : Except OpErr (List (Nat × Nat × Nat)) :=
  if !x.grouped then .ok [(0, 0, x.m)]
  else match s.readDva a x.offsets (4 * (x.experts + 1)) with
    | .error e => .error (.access e)
    | .ok b =>
      let at' := fun i => num b (4 * i) 4
      if (List.range x.experts).any (fun e => at' (e + 1) < at' e) || x.cap < at' x.experts then .error (.status 0x0116)
      else .ok (((List.range x.experts).map (fun e => (e, at' e, at' (e + 1) - at' e))).filter (fun e => e.2.2 != 0))

/-- A fabric command checked and its tiles put into the dispenser. -/
def fabRun (s : State) (c : Cmd) : Res :=
  let a := s.accOf c 31 false
  match c.phase, s.parseFab c with
  | .running, _ => .more s
  | _, .error st => .done s st 0 none
  | _, .ok x =>
    if s.noArray c.part then .done s 0x0810 0 none
    else if !s.fabTurn c then .more s
    else match s.openTensor a x.a with
      | .error e => e.res s (3 * s.firstSlice c.part)
      | .ok _ =>
        match s.readExperts a x with
        | .error e => e.res s (3 * s.firstSlice c.part)
        | .ok es =>
          let total := es.foldl (fun n e => n + x.tilesOf e.2.2) 0
          if 2 ^ 32 < total then .done s 0x0116 0 none
          else if total = 0 then .done s 0 0 none
          else .more ((s.updPart c.part fun p => { p with
              fab := p.fab ++ [{ cmd := c.id, experts := es, total, left := total }] }).updCmd c.id
            fun c => { c with phase := .running })

/-- FABRIC_MATMUL (R94, R302). -/
def execFabricMatmul (cmd : Nat) (s : State) : Answer := .next (runCmd s cmd [0x20] fabRun)

/-- GROUPED_MATMUL (R135, R302). -/
def execGroupedMatmul (cmd : Nat) (s : State) : Answer := .next (runCmd s cmd [0x21] fabRun)

/-! ## Requests, steals and returns -/

/-- The lowest tile left in a partition's dispenser: of the earliest command, a returned tile before those not yet granted
(R92, R336). -/
def lowestTile : List FabOp → Option (Nat × Nat)
  | [] => none
  | o :: os =>
    match o.returned.min? with
    | some n => some (o.cmd, n)
    | none => if o.next < o.total then some (o.cmd, o.next) else lowestTile os

/-- Whether a core may take fabric work: an active array, and its DMA engine in service (R92, R337). -/
def State.takesTiles (s : State) (core : Nat) : Bool := s.arrays core != [] && s.dmaServes core

/-- Whether a core's output buffer has room for the FP32 outputs of one more tile of a command (R17, R92). -/
def State.hasRoom (s : State) (core : Nat) (x : FabArgs) (rows : Nat) : Bool :=
  (s.core core).tiles.foldl (fun n t => n + (alignUp t.rows 16) * 512) (x.tileRows rows * 512) ≤ 0x100000

/-- A tile granted to a core. -/
def State.grant (s : State) (c : Cmd) (core : Nat) (t : Tile) : State :=
  let s := s.updFab c.part c.id fun o =>
    { o with next := if t.num = o.next then o.next + 1 else o.next, returned := o.returned.filter (· != t.num) }
  ((s.touch c.id core).setTiles core ((s.core core).tiles ++ [t])).enterHead core 3

/-- A tile requested (R92): a core with room is granted the lowest tile left. -/
def State.requestTile (s : State) (core p : Nat) : State :=
  match lowestTile (s.part p).fab with
  | none => s
  | some (cmd, n) =>
    match s.cmd? cmd, s.fabOp p cmd with
    | some c, some o =>
      match s.parseFab c with
      | .error _ => s
      | .ok x =>
        match x.tileAt cmd n o.experts n with
        | none => s
        | some t =>
          if s.canRun c && !s.coreHeld c core && s.takesTiles core && (s.core core).tiles.length < 2 && s.hasRoom core x t.rows then
            s.grant c core t
          else s
    | _, _ => s

/-- A tile taken over (R93): with the dispenser empty, an idle core takes another core's second tile. -/
def State.stealTile (s : State) (core victim p : Nat) : State :=
  match (s.core victim).tiles with
  | [t0, t1] =>
    if s.coreOwner victim == some p && (lowestTile (s.part p).fab).isNone && s.takesTiles core && (s.core core).tiles == [] &&
        (s.cmd? t1.cmd).any (fun c => s.canRun c && !s.coreHeld c core) then
      (((s.setTiles victim [t0]).touch t1.cmd core).setTiles core [t1]).enterHead core 3
    else s
  | _ => s

/-- Tiles returned to the dispenser (R102, R336). While the partition drains they are discarded. -/
def State.returnTiles (s : State) (p : Nat) (ts : List Tile) : State :=
  if s.pstate p = 4 then s
  else ts.foldl (fun s t => s.updFab p t.cmd fun o => { o with returned := o.returned ++ [t.num] }) s

/-! ## Checks, replays and fences -/

/-- Every fabric command of a partition without an active array ends (R103). -/
def State.endNoArray (s : State) (p : Nat) : State :=
  if s.noArray p then
    (s.part p).fab.foldl (fun s o =>
      let s := s.dropFab p o.cmd
      match s.cmd? o.cmd with
      | some c => s.endRun c 0x0810 0 none
      | none => s) s
  else s

/-- The record of an array or a lane that is faulty (R126, R335, R355): a lane that failed both decodes is recorded as the lane, and
any other failure as the array (DESIGN CHOICE, log entry 59). -/
def Fail.record (f : Fail) (a : Nat) (c : Cmd) : LogRec :=
  { kind := if f.lane.isSome then 0x12 else 0x11, severity := 2, unit := f.lane.getD a, queue := c.queue,
    submit := c.seq.toNat, expected := f.want, observed := f.got }

/-- One array fenced by the hardware at once, with its record of severity 2 (R335). -/
def State.fenceOne (s : State) (c : Cmd) (core : Nat) (f : Fail) : State :=
  match f.array with
  | none => s
  | some a =>
    let s := (s.setFld (Reg.arrayFence core) a 1 1).setFld (Reg.arrayStatus core) a 1 0
    (s.logCore core (f.record a c)).updCore core fun k => { k with
      windows := (k.windows.erase (2 * a)).erase (2 * a + 1), bist := k.bist ++ [a] }

/-- Arrays fenced by the hardware (R335, R336): the running tile goes back with its passes counted, and with it every held tile of a
core that has no array left. -/
def State.fenceArrays (s : State) (c : Cmd) (core : Nat) (t : Tile) (fs : List Fail) : State :=
  let s := s.updCmd c.id fun c => { c with replays := c.replays + t.begun }
  let s := (fs.foldl (fun s f => s.fenceOne c core f) s).freeBanks core t.arrs
  let s := s.updCore core fun k => { k with lanes := k.lanes.filter (fun l => 8 ≤ l.1) }
  let rest := (s.core core).tiles.filter (fun y => !y.same t)
  let none' := s.arrays core == []
  let s := (s.setTiles core (if none' then [] else rest)).returnTiles c.part ([t] ++ (if none' then rest else []))
  (s.enterHead core 3).endNoArray c.part

/-- A transient replay counted in the array's window of one second (R339); whether the threshold is reached. -/
def State.countReplay (s : State) (core array : Nat) : State × Bool :=
  let w := (s.core core).windows
  let n := w.get (fun _ => 0) (2 * array + 1)
  let live := n != 0 && s.now < w.get (fun _ => 0) (2 * array) + 1000000000
  let n := if live then n + 1 else 1
  let s := s.updCore core fun k => { k with
    windows := ((if live then k.windows else k.windows.set (fun _ => 0) (2 * array) s.now)).set (fun _ => 0)
      (2 * array + 1) n }
  let th := s.fld Reg.replayThresh 0 16
  (s, th != 0 && th ≤ n)

/-- A failure that the replay did not repeat: a record of severity 1, and its array's count (R335, R339). The failures whose arrays
reach the threshold are given back without their lane. -/
def State.noteTransient (s : State) (c : Cmd) (core : Nat) (f : Fail) : State × List Fail :=
  match f.array with
  | none => (s, [])
  | some a =>
    let s := s.logCore core { kind := 0x10, severity := 1, unit := a, queue := c.queue, submit := c.seq.toNat,
                              expected := f.want, observed := f.got }
    match s.countReplay core a with
    | (s, true) => (s, [{ f with lane := none }])
    | (s, false) => (s, [])

def State.noteTransients (s : State) (c : Cmd) (core : Nat) (fs : List Fail) : State × List Fail :=
  fs.foldl (fun acc f => let r := acc.1.noteTransient c core f; (r.1, acc.2 ++ r.2)) (s, [])

/-- The passes a failure finds begun behind the failed one: up to six more (R82), as far as the tile has more, how many the spec
leaves to timing. -/
def State.begunBehind (s : State) (t : Tile) : Nat :=
  let groups := ceilDiv t.rows (128 * t.arrs.length)
  min (Config.freeNat s.free 0 % 7) (t.kts.length * (groups - t.group) - (t.pass + 1))

/-- The rows that entered for passes that a failure discards (R88, R101): with data and empty, up to a full pass each, how many the
spec leaves to timing. -/
def State.countDiscarded (s : State) (core : Nat) (t : Tile) : State :=
  let most := s.begunBehind t * 128 * t.arrs.length
  (s.count core 0x10 (Config.freeNat s.free 1 % (most + 1))).count core 0x11 (Config.freeNat s.free 2 % (most + 1))

/-- The blocks of a part of a compressed pass counted by type, as the expanders deliver them (R137). -/
def State.countBlocks (s : State) (a : Acc) (x : FabArgs) (core : Nat) (t : Tile) (kt : Nat) : State :=
  match s.openTensor a x.a with
  | .ok (some ct) =>
    let ts := (s.actsOf a x t t.partRows).flatMap (fun m => (windowBlocks x ct m kt).map (s.blockType a ct))
    ((s.count core 0x20 (ts.filter (· == 0)).length).count core 0x21 (ts.filter (· == 1)).length).count core 0x22
      (ts.filter (· == 2)).length
  | _ => s

/-- What one attempt at a part of a pass leaves whatever its check finds: the rows that entered, with the empty rows of short arrays
and of the token of a split (R84, R101), the blocks delivered (R137), and the replay counted if it is one (R89). -/
def State.countAttempt (s : State) (a : Acc) (c : Cmd) (core : Nat) (x : FabArgs) (t : Tile) (kt : Nat) : State :=
  let n := t.arrs.length
  let data := t.partRows.length
  let token := if t.cuts.isEmpty then 0 else n
  let s := ((s.count core 0x10 data).count core 0x11 (n * (t.hi - t.lo) - data + token)).countBlocks a x core t kt
  if t.failed.isEmpty then s else s.updCmd c.id fun c => { c with replays := c.replays + 1 }

/-- The flags and rounded elements of a part's rows as they stream (R45, R51, R58). -/
def State.noteRows (s : State) (a : Acc) (c : Cmd) (core : Nat) (x : FabArgs) (t : Tile) (kt : Nat)
    (rows : List (List (Val × Val))) : State :=
  let special := x.a.sf != 0 && (s.actsOf a x t t.partRows).any (fun m => nanScale x.a.sf (s.rowScaleBytes a x m kt))
  let flags := if special then scaleSpecial else 0
  let loss := if x.mode = 16 then alignLoss x.group (rows.map (fun r => r.map (·.1))) else 0
  ((s.noteConv core flags 0).bump (Reg.alignLoss core) 0 32 loss).updFab c.part c.id fun o => { o with flags := o.flags ||| flags }

/-- The rows of a part read in order: the error of the first that cannot be, or their windows. -/
def State.partWindows (s : State) (a : Acc) (x : FabArgs) (t : Tile) (kt : Nat) : Except OpErr (List (List (Val × Val))) :=
  match s.openTensor a x.a with
  | .error e => .error e
  | .ok ct => collect (fun i => s.passRow a x ct kt (t.first + i)) t.partRows

/-- The rows of one array in a part, as its operand port delivers them. -/
def arrayRows (x : FabArgs) (t : Tile) (q : Nat) (rows : List (List (Val × Val))) : List (List (Grp × Val)) :=
  ((t.partRows.zip rows).filter (fun y => y.1 % t.arrs.length == q)).map (fun y =>
    rowGroups (x.mode == 16) x.a.elem x.group y.2)

/-- The errors that the checks beside the checksums find in an array (R86, R126, R334, R338): residues and parities, an expander
lane, and the parity of the register file and of the committed bank. -/
def State.sideFails (s : State) (core : Nat) (t : Tile) (fs : List PassFault) (arr : Nat) : List Fail :=
  let y := s.arr core arr
  let st := y.stat.get (fun _ => {}) y.active
  let bank := t.bank.elim [] (fun b => y.banks.get (fun _ => []) b)
  (if st.srf.all (fun e => e.all srfOk) && bank.all bankOk then [] else [{ array := some arr }]) ++
    fs.filterMap (fun f => match f with
      | .side a w g => if a = arr then some { array := some arr, want := w.toNat, got := g.toNat } else none
      | .lane a l => if a = arr ∧ l < 2 then some { array := some arr, lane := some (2 * arr + l) } else none
      | _ => none)

/-- What the checks of a part find in one array: the exact check first. -/
def State.arrayFails (s : State) (core : Nat) (x : FabArgs) (t : Tile) (fs : List PassFault) (arr q : Nat)
    (rows : List (List (Val × Val))) : List Fail :=
  let y := s.arr core arr
  let st := y.stat.get (fun _ => {}) y.active
  let p := arrayPass x st fs arr (arrayRows x t q rows)
  ((match p.check x st fs arr with
    | some v => [{ array := some arr, want := v.1, got := v.2 }]
    | none => []) ++ s.sideFails core t fs arr).take 1

/-- The words of SRAM that a pass must fetch again: each fails the pass without blaming an array (R338). -/
def refetches (fs : List PassFault) : List Nat := fs.filterMap (fun f => match f with | .refetch o => some o | _ => none)

/-- Every failure of a part of a pass. -/
def State.partFails (s : State) (core : Nat) (x : FabArgs) (t : Tile) (fs : List PassFault)
    (rows : List (List (Val × Val))) : List Fail :=
  t.arrs.zipIdx.flatMap (fun y => s.arrayFails core x t fs y.1 y.2 rows) ++ (refetches fs).map (fun _ => { array := none })

/-- A failed check of a part (R88, R335). An array that failed the attempt before as well is faulty; a failure that the replay did
not repeat was transient. With no array to fence, the pass runs again from the committed bank. -/
def State.passFails (s : State) (c : Cmd) (core : Nat) (x : FabArgs) (t : Tile) (kt : Nat) (fails : List Fail) : State :=
  let again := fails.filter (fun f => f.array.isSome && t.failed.any (fun o => o.array == f.array))
  let past := t.failed.filter (fun o => !fails.any (fun f => f.array == o.array))
  let r := s.noteTransients c core past
  let faulty := again.map (fun f =>
    if t.failed.any (fun o => o.array == f.array && o.lane == f.lane) then f else { f with lane := none })
  let t' := { t with failed := fails, begun := max t.begun (t.ran + 1 + r.1.begunBehind t) }
  if again.isEmpty && r.2.isEmpty then ((r.1.count core 0x17 1).countDiscarded core t).draw.beginPass c core x t' kt
  else (r.1.countDiscarded core t).draw.fenceArrays c core t' (faulty ++ r.2)

/-- The new bank that a part writes in one array (R81): the rows of the part as they come out, and the others as they stood. -/
def State.newBank (s : State) (core : Nat) (x : FabArgs) (t : Tile) (fs : List PassFault) (arr q : Nat)
    (rows : List (List (Val × Val))) : List Nat :=
  let y := s.arr core arr
  let old := t.bank.elim [] (fun b => y.banks.get (fun _ => []) b)
  let row := fun slot => (List.range t.cols).map (fun j => old.getD (slot * t.cols + j) 0 % 2 ^ 32)
  let p := arrayPass x (y.stat.get (fun _ => {}) y.active) fs arr (arrayRows x t q rows)
  (List.range t.slots).flatMap (fun slot =>
    ((if t.lo ≤ slot && slot < t.hi && (slot * t.arrs.length + q < t.groupRows) then p.out (slot - t.lo) (row slot)
      else row slot).map bankWord))

/-- The bank that a part writes: a free one of the eight, the one after the committed bank (R81, R82). -/
def Tile.nextBank (t : Tile) : Nat := t.bank.elim 0 (fun b => (b + 1) % 8)

/-- A part commits: each array's new bank, and the bank committed before it freed (R82). -/
def State.commitBanks (s : State) (core : Nat) (x : FabArgs) (t : Tile) (fs : List PassFault)
    (rows : List (List (Val × Val))) : State :=
  t.arrs.zipIdx.foldl (fun s' y => s'.updArr core y.1 fun z =>
    { z with banks := [(t.nextBank, s.newBank core x t fs y.1 y.2 rows)] }) s

/-- A tile after a part that passed: on to the rows behind the split, or to the next pass (R84). -/
def Tile.passed (t : Tile) : Tile :=
  let t' := { t with bank := some t.nextBank, failed := [], ran := t.ran + 1, begun := max t.begun (t.ran + 1) }
  if t.cuts.isEmpty then { t' with pass := t.pass + 1, lo := 0 } else { t' with lo := t.hi, cuts := t.cuts.tail }

/-- The code of the wider of two element formats; the streaming operand's where they are as wide (R441; DESIGN CHOICE, log entry 37). -/
def widerElem (a w : Nat) : Nat := if elemBits a < elemBits w then w else a

/-- Passes that passed their check, with their format (R101, R441). -/
def State.countPasses (s : State) (core code n : Nat) : State :=
  (s.count core 0x15 n).countIf core 0x02 (fun q => q == code || q == 0xFF) n

/-- A part that passes its check (R82, R86): its bank commits and the tile goes on. Failures that this replay did not repeat were
transient (R335, R339). -/
def State.passPasses (s : State) (c : Cmd) (core : Nat) (x : FabArgs) (t : Tile) (fs : List PassFault)
    (rows : List (List (Val × Val))) : State :=
  let s := ((s.commitBanks core x t fs rows).countPasses core (widerElem x.a.elem x.w.elem) 1).progress core 0
  let t' := t.passed
  match s.noteTransients c core t.failed with
  | (s, []) => if t.cuts.isEmpty then (s.settle c core x t'.fuel t').enterHead core 3 else s.putTile core t'
  | (s, lasting) => s.fenceArrays c core t' lasting

/-- The transfers of a pass whose parity failed (R335): each repeat that passed is counted; a second failure ends the command. -/
def State.passPaths (s : State) (c : Cmd) (core : Nat) : List PassFault → State × Bool
  | [] => (s, false)
  | .path id false :: fs => (s.pathReplay c core id).passPaths c core fs
  | .path id true :: _ => (s.pathBroken c core id, true)
  | _ :: fs => s.passPaths c core fs

/-- The pass in a core's arrays: its command, block, tile and stationary tile. -/
def State.running (s : State) (core : Nat) : Option (Cmd × FabArgs × Tile × Nat) :=
  match (s.core core).tiles.head? with
  | none => none
  | some t =>
    match s.cmd? t.cmd with
    | none => none
    | some c =>
      match s.parseFab c, t.kts[t.pass]? with
      | .ok x, some kt => if s.canRun c && t.live && t.arrs != [] then some (c, x, t, kt) else none
      | _, _ => none

/-- Whether blocks of the pass still wait for a decode slot (R118). -/
def CoreSt.expanding (k : CoreSt) : Bool := k.lanes.any (fun l => l.1 < 8)

/-- The exact and the other checks of the running part complete (R86, R88, R126). A stored block whose CHECK does not hold fails the
pass once, and is invalid when it decodes to the same again (R113, R126). -/
def State.passCheck (s : State) (c : Cmd) (core : Nat) (x : FabArgs) (t : Tile) (kt : Nat) (fs : List PassFault) : State :=
  let a := s.accOf c core false
  match s.passPaths c core fs with
  | (s, true) => s.failFab c core x (.status 0x0801)
  | (s, false) =>
    match s.partWindows a x t kt with
    | .error (.block st i r) =>
      if r = 5 ∧ !t.failed.any (·.block) then
        ((s.count core 0x26 1).countAttempt a c core x t kt).passFails c core x t kt [{ array := none, block := true }]
      else s.failFab c core x (.block st i r)
    | .error e => s.failFab c core x e
    | .ok rows =>
      let s := (s.countAttempt a c core x t kt).noteRows a c core x t kt rows
      let s := (refetches fs).foldl (fun s o => s.logCore core
        { kind := 0x05, severity := 1, queue := c.queue, submit := c.seq.toNat, address := o }) s
      let s := s.count core 0x26 (fs.filter (fun f => match f with | .lane .. => true | _ => false)).length
      match s.partFails core x t fs rows with
      | [] => s.passPasses c core x t fs rows
      | fails => s.passFails c core x t kt fails

/-- PASS_CHECK (R86): the checks of the pass in a core's arrays complete, under the faults that met it. The arrays that fail, and the
values they wanted and got, follow from those faults (R85). -/
def execPassCheck (core : Nat) (faults : List PassFault) (s : State) : Answer :=
  if 24 ≤ core then .next s
  else match s.running core with
    | none => .next s
    | some (c, x, t, kt) => when (!(s.core core).expanding) s (s.passCheck c core x t kt faults)

/-- PASS_SPLIT (R84): the token enters on an empty row once `slots` rows of the pass have entered each array, and the pass closes;
its later rows form a continuation pass with a check of its own. -/
def execPassSplit (core slots : Nat) (s : State) : Answer :=
  if 24 ≤ core then .next s
  else match s.running core with
    | none => .next s
    | some (_, _, t, _) =>
      when ((t.cuts.getLast?).getD t.lo < slots && slots < t.slots) s
        ((s.count core 0x16 1).putTile core { t with cuts := t.cuts ++ [slots] })

/-- ARRAY_FENCE_TAKES_EFFECT (R102): at a tile boundary the arrays fenced by software stop; a core without an array returns its
tiles. The next tile enters only after it. -/
def execArrayFenceTakesEffect (core : Nat) (s : State) : Answer :=
  if 24 ≤ core then .next s
  else
    let pend := (s.core core).fencePend
    let s1 := (s.setFld (Reg.arrayStatus core) 0 4 (s.fld (Reg.arrayStatus core) 0 4 &&& (15 - pend % 16))).updCore core
      fun k => { k with fencePend := 0, bist := k.bist ++ ones pend 4 }
    let held := (s1.core core).tiles
    let s2 := if s1.arrays core = [] then
        match s1.coreOwner core with
        | some p => ((s1.setTiles core []).returnTiles p held).endNoArray p
        | none => s1
      else s1.enterHead core 3
    when (s.active && pend != 0 && !(s.core core).tiles.any (·.live)) s s2

/-- ARRAY_FENCE_SET (R102): the physical function sets fence bits; they take effect at the core's next tile boundary. Bits
written 0 are UNIT_RETURN_TO_SERVICE's. -/
def execArrayFenceSet (fn core : Nat) (val : BitVec 32) (s : State) : Answer :=
  if 24 ≤ core then .next s
  else
    let old := s.fld (Reg.arrayFence core) 0 4
    let add := (val.toNat % 16) &&& (15 - old)
    regWriteRow s fn (Reg.arrayFence core) (if fn = 0 then
        (s.setFld (Reg.arrayFence core) 0 4 (old ||| add)).updCore core fun k => { k with fencePend := k.fencePend ||| add }
      else s)

end Sys2Proof.Machine
end

