-- ==== Sys2Proof/Machine/Prefill.lean ====
section
/-!
DEFINITION. ATTEND_PREFILL (R196): key blocks of 128 positions, the two fabric parts (R54 to R60, R71) and the vector part
between them, with the checks that both carry (R86, R153). It runs as one event; log entry 23 lists what that leaves out.
-/
namespace Sys2Proof.Machine

/-- The weight group of a key or value tensor used as the stationary operand (R50, R55): its block, or the group that an
unscaled one takes. -/
def tagGroup (tag : Nat) : Nat :=
  if bits tag 4 2 = 0 then (if is16 (tag % 16) then 64 else 128) else 16 * 2 ^ bits tag 6 2

/-- Logical products of one stationary tile (R71). -/
def modeTile (mode : Nat) : Nat := if mode = 4 then 256 else if mode = 16 then 64 else 128

/-- The reduction group of a fabric part (R55). -/
def partGroup (mode w asf ablock : Nat) : Nat := min (modeTile mode) (if asf = 0 then w else min w ablock)

/-- What the conversions of a piece of work leave behind: the flags of R45, the NaNs that became +0 and the 16-bit elements that
alignment rounded (R47). -/
structure Noted where
  flags : Nat := 0
  lost  : Nat := 0
  loss  : Nat := 0
  deriving DecidableEq, Repr

def Noted.and (x y : Noted) : Noted := ⟨x.flags ||| y.flags, x.lost + y.lost, x.loss + y.loss⟩
def Noted.all (xs : List Noted) : Noted := xs.foldl Noted.and {}

/-- One output of a fabric part: stationary tiles in ascending order, their groups inside them (R59). `ae` and `we` are the element
codes of the activation and of the stationary operand. -/
def fabPart (mode ae we group : Nat) (a w : List (Val × Val)) : Nat :=
  let kt := modeTile mode
  ((chop kt a.length a).zip (chop kt w.length w)).foldl (fun acc x =>
    let ga := rowGroups (mode == 16) ae group x.1
    let gw := rowGroups (mode == 16) we group x.2
    passElem acc (rowSums ga gw) ga gw) 0

/-- The 16-bit elements that alignment rounds in the rows or channels of a fabric part (R58). -/
def partLoss (mode group : Nat) (rows : List (List (Val × Val))) : Nat :=
  if mode = 16 then alignLoss group (rows.map (fun r => r.map (·.1))) else 0

/-- A page's tokens in the key format of the first page of the block (R54, R196): converted where the tags differ. -/
def PageData.as (d : PageData) (tag heads dim : Nat) : PageData × Noted :=
  if d.tag = tag then (d, {})
  else
    let t := tagTensor tag (heads * dim)
    let conv := fun (x : List Nat × List Nat) =>
      convTensor { t with rows := 1 } .rne (defaultIeee (tag % 16))
        [(List.range heads).flatMap (fun h => (headPairs d.tag dim h x).map (fun v => v.1.mul v.2))]
    let ks := d.ks.map conv
    let vs := d.vs.map conv
    let put := fun (y : Conv) => (y.codes.flatten, y.scales)
    (⟨tag, ks.map put, vs.map put⟩, Noted.all ((ks ++ vs).map (fun y => { flags := y.flags, lost := y.lost })))

/-- A probability row in its format with the flags of its conversion (R45, R196): BF16, or FP8 E4M3 with E8M0 scales in blocks of
32. -/
def probRow (fmt : Nat) (ps : List Nat) : List (Val × Val) × Nat :=
  if fmt = 0 then
    let xs := ps.map (fun p => convElem 1 .rne true (ofF32 p))
    (xs.map (fun x => (elemVal 1 x.1, .fin false 1 0)), xs.foldl (fun f x => f ||| x.2) 0)
  else
    let xs := (chop 32 ps.length (ps.map ofF32)).map (convBlock 1 3 .rne false)
    (xs.flatMap (fun x => x.2.1.map (fun code => scalePair 1 x.1 (elemVal 3 code))), xs.foldl (fun f x => f ||| x.2.2) 0)

/-- A column of a key block's values along its positions, as the stationary operand holds it: re-blocked along the reduction where
it is scaled (R54). -/
def valueCol (tag dim g d : Nat) (vs : List (List Nat × List Nat)) : List (Val × Val) × Nat :=
  let pairs := vs.map (fun x => (headPairs tag dim g x).getD d (.nan, .fin false 1 0))
  if bits tag 4 2 = 0 then (pairs, 0) else reblock (tagTensor tag pairs.length) (pairs.map (fun v => v.1.mul v.2))

/-- A key block as the stationary operand of one KV head: its keys, and its value columns. -/
structure HeadBlock where
  tag  : Nat
  keys : List (List (Val × Val))
  cols : List (List (Val × Val))
  deriving DecidableEq, Repr

/-- The cell mode and the reduction group of the query part, and of the probability part (R55, R71). -/
def AttArgs.queryPart (x : AttArgs) (tag : Nat) : Nat × Nat :=
  let mode := cellMode x.q.elem (tag % 16)
  (mode, partGroup mode (tagGroup tag) x.q.sf x.q.block)
def AttArgs.probElem (x : AttArgs) : Nat := if x.prob = 0 then 1 else 3
def AttArgs.probPart (x : AttArgs) (tag : Nat) : Nat × Nat :=
  let mode := cellMode x.probElem (tag % 16)
  (mode, partGroup mode (tagGroup tag) x.prob 32)

/-- The loading of a key block for one KV head, with what its re-blocking and alignment leave (R54, R58). -/
def headBlock (x : AttArgs) (dim g : Nat) (d : PageData) : HeadBlock × Noted :=
  let keys := d.ks.map (headPairs d.tag dim g)
  let cols := (List.range dim).map (fun i => valueCol d.tag dim g i d.vs)
  let q := x.queryPart d.tag
  let p := x.probPart d.tag
  (⟨d.tag, keys, cols.map (·.1)⟩,
    { flags := cols.foldl (fun f c => f ||| c.2) 0
      loss := partLoss q.1 q.2 keys + partLoss p.1 p.2 (cols.map (·.1)) })

/-- The update of one query row of one head by a key block (R193, R196): its first `n` positions are seen, and the probabilities of
the others are +0. The rows stream once, and the probabilities once for each 128 columns of the values. -/
def prefillBlock (x : AttArgs) (n : Nat) (qh : List (Val × Val)) (b : HeadBlock) (acc : Acc3) : Acc3 × Noted :=
  if n = 0 then (acc, {}) else
    let we := b.tag % 16
    let q := x.queryPart b.tag
    let p := x.probPart b.tag
    let scores := (b.keys.take n).map (fun k => fMul (fabPart q.1 x.q.elem we q.2 qh k) x.scale)
    let m' := scores.foldl fMax acc.m
    let f := fExp2 (fSub acc.m m')
    let ps := scores.map (fun s => fExp2 (fSub s m'))
    let row := probRow x.prob (ps ++ List.replicate (b.keys.length - n) 0)
    ({ m := m'
       l := fAdd (fMul acc.l f) (fSum ps)
       o := acc.o.mapIdx (fun i y => fAdd (fMul y f) (fabPart p.1 x.probElem we p.2 row.1 (b.cols.getD i []))) },
      { flags := row.2, loss := partLoss q.1 q.2 [qh] + ceilDiv b.cols.length 128 * partLoss p.1 p.2 [row.1] })

/-- One query row of one head over every key block, ended by RCP(l) (R196). -/
def prefillRow (x : AttArgs) (dim seen : Nat) (qh : List (Val × Val)) (blocks : List HeadBlock) : List Nat × Noted :=
  let r := (blocks.zipIdx).foldl (fun (acc : Acc3 × Noted) (b, i) =>
    let y := prefillBlock x (min b.keys.length (seen - 128 * i)) qh b acc.1
    (y.1, acc.2.and y.2)) ({ o := List.replicate dim 0 }, {})
  (r.1.o.map (fun y => fMul y (sfu 2 r.1.l)), r.2)

/-- The pages of a key block as one, in the key format of its first page. -/
def joinPages (heads dim : Nat) : List PageData → PageData × Noted
  | [] => (⟨0, [], []⟩, {})
  | d :: ds =>
    let xs := ds.map (fun e => e.as d.tag heads dim)
    (⟨d.tag, d.ks ++ xs.flatMap (·.1.ks), d.vs ++ xs.flatMap (·.1.vs)⟩, Noted.all (xs.map (·.2)))

/-- The output rows of a sequence and what its conversions leave. -/
def prefillSeq (x : AttArgs) (pl : Pool) (q : AttSeq) (qrows : List (List (Val × Val))) (pages : List PageData) :
    List (List Nat) × Noted :=
  let heads := x.heads pl
  let joined := (chop 8 pages.length pages).map (joinPages pl.heads pl.dim)
  let loaded := (List.range pl.heads).map (fun g => joined.map (fun d => headBlock x pl.dim g d.1))
  let rows : List (List (List Nat × Noted)) := qrows.zipIdx.map (fun (row, j) => (List.range heads).map (fun h =>
    prefillRow x pl.dim (q.length + j + 1) ((row.drop (h * pl.dim)).take pl.dim)
      ((loaded.getD (h / (heads / pl.heads)) []).map (·.1))))
  (rows.map (fun r => r.flatMap (·.1)),
    Noted.all (joined.map (·.2) ++ loaded.flatMap (fun l => l.map (·.2)) ++ rows.flatMap (fun r => r.map (·.2))))

/-- Whether every page's format gives the fabric groups it can hold (R55, R104). -/
def prefillGroups (x : AttArgs) (pages : List PageData) : Bool :=
  pages.all (fun d => 32 ≤ (x.queryPart d.tag).2 && 32 ≤ (x.probPart d.tag).2)

/-! ## The run of the command -/

/-- What a prefill leaves on its core: flags, lost NaNs and rounded elements (R47). -/
def State.noteWork (s : State) (core : Nat) (n : Noted) : State :=
  (s.noteConv core n.flags n.lost).bump (Reg.alignLoss core) 0 32 n.loss

/-- The sequences computed in order and their rows written as they end, the pages read from sealed ranges too (R414): the rows that
wait for the rest of their scale block, the flags, and the error that ends the command. -/
def State.prefillSeqs (s : State) (c : Cmd) (core : Nat) (x : AttArgs) :
    List AttSeq → State × List (Nat × List Nat) × Nat × Option OpErr
  | [] => (s, [], 0, none)
  | q :: qs =>
    let pl := s.pool c.part q.pool
    let a := s.accOf c core false
    let r := s.chunkData { s.poolAcc c pl with source := core, sealedRd := true } x pl q (List.range (ceilDiv (q.length + q.run) 16))
    match r.2, collect (s.queryRow a x.q) ((List.range q.run).map (q.row + ·)) with
    | some (_, e), _ => (s, [], 0, some e)
    | _, .error e => (s, [], 0, some e)
    | none, .ok qrows =>
      let ds := r.1.map (·.2)
      if !prefillGroups x ds then (s, [], 0, some (.status 0x0113))
      else
        let y := prefillSeq x pl q qrows ds
        let special := if ds.any (·.special) ∨ s.scaleFlag a (x.q.rowsAt q.row q.run) ≠ 0 then scaleSpecial else 0
        let n := y.2.and { flags := special }
        match (s.noteWork core n).putOut a x.o q.row y.1 with
        | (s1, _, fl, lost, some e) => (s1.noteConv core fl lost, [], 0, some e)
        | (s1, outs, fl, lost, none) =>
          let z := (s1.noteConv core fl lost).prefillSeqs c core x qs
          (z.1, outs ++ z.2.1, n.flags ||| fl ||| z.2.2.1, z.2.2.2)

/-- The scratch buffer left open and the written lines dropped from the core's cache (R226). -/
def State.prefillWrote (s : State) (a : Acc) (core : Nat) (x : AttArgs) : State :=
  let o := match x.o.loc with
    | .dva d => [(d, x.o.extent)]
    | .sram _ _ => []
  (s.fillFree a (.dva x.scratch) x.size).dropWritten a [core]
    ([(x.scratch, x.size)] ++ o ++ (if x.o.sf = 0 then [] else [(x.o.scale, x.o.scaleBytes)]))

/-- The work of the command and its status (R45, R196, R198). A bad header leaves what is written (R198); any other error leaves partial
results. -/
def State.prefillRun (s : State) (c : Cmd) (core : Nat) (x : AttArgs) (qs : List AttSeq) : Res :=
  let a := s.accOf c core false
  let y := s.prefillSeqs c core x qs
  let n := qs.foldl (fun n q => max n (q.row + q.run)) 0
  let s1 := y.1.prefillWrote a core x
  match y.2.2.2 with
  | some e => e.res (if e = .status 0x050A then s1 else s1.freeTensor a x.o) core
  | none =>
    match s1.putAcross a x.o n y.2.1 with
    | (s2, _, _, some e) => e.res (s2.freeTensor a x.o) core
    | (s2, fl, lost, none) =>
      let st := c.convStatus (y.2.2.1 ||| fl)
      let s3 := s2.noteConv core fl lost
      .done (if st.1 = 0x0111 then s3.freeTensor a x.o else s3) st.1 st.2 x.o.loc.watched

/-- A fault in an array while it works on a prefill (R88, R335, R339): a replay that clears it, or a fence of the array, after which
the tile runs again from its first pass. How many passes of the tile had begun by then is free (R336). -/
def State.prefillArray (s : State) (c : Cmd) (core a : Nat) (again : Bool) : State :=
  let f : Fail := { array := some a }
  let s := (s.updCmd c.id fun c => { c with replays := c.replays + 1 }).count core 0x17 1
  if again then
    ((s.updCmd c.id fun c => { c with replays := c.replays + 1 + Config.freeNat s.free a }).draw).fenceOne c core f
  else
    let r := s.noteTransient c core f
    r.2.foldl (fun s f => s.fenceOne c core f) r.1

/-- The faults that meet the work, in order, and the status that ends the command. A vector engine that fails for good ends it
(R154); without an array left in the partition there is 0x0810 (R103). -/
def State.prefillFaults (s : State) (c : Cmd) (core : Nat) : List PrefillFault → State × Nat
  | [] => (s, 0)
  | .array a again :: fs =>
    if (s.arrays core).contains a then
      let s := s.prefillArray c core a again
      if s.noArray c.part then (s.endNoArray c.part, 0x0810) else s.prefillFaults c core fs
    else s.prefillFaults c core fs
  | .vector false :: fs => (s.vecReplay c core).prefillFaults c core fs
  | .vector true :: _ => (s.vecBroken c core, 0x0820)
  | .path id false :: fs => (s.pathReplay c core id).prefillFaults c core fs
  | .path id true :: _ => (s.pathBroken c core id, 0x0801)
  | .refetch o :: fs =>
    ((s.updCmd c.id fun c => { c with replays := c.replays + 1 }).logCore core
      { kind := 0x05, severity := 1, queue := c.queue, submit := c.seq.toNat, address := o }).prefillFaults c core fs

/-- The formats that a pass of a prefill may count under (R441): those of the queries and the probabilities, and any wider one, as the
keys and values have. -/
def AttArgs.passCodes (x : AttArgs) : List Nat :=
  (List.range 16).filter (fun e => widerElem x.q.elem e == e || widerElem x.probElem e == e || e == x.q.elem || e == x.probElem)

/-- The fabric events of a prefill (R101, R441): rows, passes and tiles, as many as its cut into tiles gives, which the spec leaves
open. -/
def State.prefillCounts (s : State) (core : Nat) (x : AttArgs) : State :=
  let s' := [0x10, 0x11, 0x18].foldl (fun s' e => s'.count core e (Config.freeNat s.free e)) s
  (x.passCodes.foldl (fun s' e => s'.countPasses core e (Config.freeNat s.free (32 + e))) s').draw

/-- The cores that take tiles of an ATTEND_PREFILL: fabric, vector and DMA engines in service (R337). -/
def State.prefillCores (s : State) (p : Nat) : List Nat :=
  (s.coresOf p).filter (fun k => s.takesTiles k && s.fld (Reg.vecFault k) 0 1 == 0)

/-- The core that runs a prefill: the lowest that holds no tile of another command and that no earlier command holds back (R94, R233). -/
def State.prefillCore (s : State) (c : Cmd) : Option Nat :=
  (s.prefillCores c.part).find? (fun k => (s.core k).tiles == [] && !s.coreHeld c k)

/-- ATTEND_PREFILL (R196, R305, R337). It takes its turn on the fabric and on the vector engine (R94, R159, R315). -/
def attendPrefill (fs : List PrefillFault) (s : State) (c : Cmd) : Res :=
  let p := c.part
  match s.parseAtt c with
  | .error st => .done s st 0 none
  | .ok x =>
    if 1 < x.prob then .done s 0x0104 0 none
    else if x.chunk % 16 ≠ 0 ∨ 512 < x.chunk then .done s 0x0116 0 none
    else match s.stepList c x.list x.count with
      | .error e => e.res s (3 * s.firstSlice p)
      | .ok es =>
        let xs := s.stepSeqs p es [] 0
        let st := s.attCheck p x xs
        if st ≠ 0 then .done s st 0 none
        else if s.noArray p then .done s 0x0810 0 none
        else if s.prefillCores p = [] then .done s 0x0821 0 none
        else if !s.fabTurn c then .more s
        else match s.prefillCore c with
          | none => .more s
          | some core =>
            if !s.vecTurn c [core] then .more s
            else match s.attSeqs c x 1 xs 0 0 with
              | .error e => .fail s e
              | .ok qs =>
                match ((s.touch c.id core).prefillCounts core x).prefillFaults c core fs with
                | (s1, 0) => s1.prefillRun c core x qs
                | (s1, st) => .done (if st = 0x0810 then s1 else s1.freeTensor (s1.accOf c core false) x.o) st 0 none

/-- ATTEND_PREFILL (R196). -/
def execAttendPrefill (cmd : Nat) (faults : List PrefillFault) (s : State) : Answer :=
  .next (runCmd s cmd [0x25] (attendPrefill faults))

end Sys2Proof.Machine
end

