-- ==== Sys2Proof/Machine/Net.lean ====
section
/-!
DEFINITION. The Stobel transport (R362 to R381): frames and their headers, hellos and keying, the sender (credits, window,
round robin, retransmission, RNR) and the receiver (drops, gaps, order within a pair, placement, refusal). Log entries 24 to 26
name what the spec leaves open here.
-/
namespace Sys2Proof.Machine

/-! ## Registers and events of a port -/

/-- A counter of a port advanced (R389). -/
def State.bumpNet (s : State) (n o k : Nat) : State := s.bump (Reg.net n o) 0 32 k
/-- CWND (R379, R389). -/
def State.cwnd (s : State) (n : Nat) : Nat := s.fld (Reg.net n 0x44) 16 10
def State.setCwnd (s : State) (n v : Nat) : State := s.setFld (Reg.net n 0x44) 16 10 v
/-- PEER_EPOCH and PEER_READY (R372). -/
def State.peerEpoch (s : State) (n : Nat) : Nat := s.fld (Reg.net n 0) 16 8
def State.peerReady (s : State) (n : Nat) : Bool := s.fld (Reg.net n 0) 3 1 == 1

/-- Events of a port: in every core of the first slice of its partition, under a qualifier that is a mask of ports (R390). -/
def State.countPort (s : State) (n ev k : Nat) : State :=
  match s.portOwner n with
  | none => s
  | some p => (List.range 3).foldl (fun s i => s.countIf (3 * s.firstSlice p + i) ev (fun q => q % 16 == 0 || bitB q n) k) s

/-- The job ID and epoch that a partition's frames carry (R383). -/
def State.jobOf (s : State) (p : Nat) : Nat × Nat :=
  if s.fld (Reg.abort p) 0 1 = 1 then (s.fld (Reg.job p) 0 16, s.fld (Reg.job p) 16 16) else (0, 0)

/-- A pair as a key. -/
def pairKey (src dst : Nat) : Nat := src * 4096 + dst
/-- Segments of a message (R370). -/
def segsOf (bytes : Nat) : Nat := max 1 (ceilDiv bytes 8192)
/-- Whether PSN or MSG_SEQ `a` is at or before `b`. -/
def seqLe (a b : BitVec 32) : Bool := (b - a).toNat < 2 ^ 31

/-! ## Sending -/

/-- A header with what every frame of a port carries: epochs, credits, ACK_PSN, ECE (R369, R378, R379). -/
def State.fillHdr (s : State) (n : Nat) (h : Hdr) : Hdr :=
  let x := s.port n
  { h with
    srcEpoch := BitVec.ofNat 8 ((s.portOwner n).elim 0 s.epoch)
    dstEpoch := BitVec.ofNat 8 (s.peerEpoch n)
    credits := min x.freed 65535
    ackValid := true
    ackPsn := x.rxAck
    ece := x.ece }

/-- A frame on its way: the credits and the congestion mark it carries are spent, and its acknowledgement is sent. -/
def State.putFrame (s : State) (n : Nat) (f : Frame) : State :=
  (s.emit (.frame n f)).updPort n fun x => { x with
    freed := x.freed - f.hdr.credits, ece := false, placed := 0, ackAt := none, lastTx := s.now, pn := x.pn + 1 }

/-- An unsequenced frame (R370). -/
def State.sendCtl (s : State) (n : Nat) (h : Hdr) : State := s.putFrame n { hdr := s.fillHdr n h }

/-- A sequenced frame (R370, R378): its PSN, its job, and its place among the unacknowledged. -/
def State.sendSeq (s : State) (n : Nat) (h : Hdr) (job : Nat × Nat) (data : List Byte) : State :=
  let x := s.port n
  let hdr := { s.fillHdr n h with psn := x.psn, jobId := BitVec.ofNat 16 job.1, jobEpoch := BitVec.ofNat 16 job.2 }
  let f : Frame := { hdr, payload := data }
  let rto := 1000 * s.fld (Reg.net n 0x40) 0 8
  ((s.putFrame n f).updPort n fun x => { x with
    psn := x.psn + 1, unacked := x.unacked ++ [{ frame := f, sentAt := s.now, rto }] }).countPort n 0x70 1

/-- PEER_READY: both ends have exchanged HELLOs with OWNED = 1 (R372). -/
def State.syncReady (s : State) (n : Nat) : State :=
  let x := s.port n
  s.setFld (Reg.net n 0) 3 1 (b2n (s.linkUp n && x.sentHello && x.gotHello && s.fld (Reg.net n 0) 4 1 == 1 &&
    s.fld (Reg.net n 0) 8 1 == 1))

/-- The first 16 bytes of the device identity digest (R372, R416). -/
def State.deviceTag (s : State) : BitVec 128 :=
  BitVec.ofNat 128 (s.reg64 0x17001A0 0x17001A4 + 2 ^ 64 * s.reg64 0x17001A8 0x17001AC)

/-- A HELLO (R372), with the 510 shared credits of R378. -/
def State.sendHello (s : State) (n : Nat) : State :=
  let p := s.portOwner n
  ((s.emit (.hello n p.isSome (BitVec.ofNat 8 (p.elim 0 s.epoch)) 510 s.deviceTag)).updPort n fun x =>
    { x with sentHello := true, lastHello := s.now, lastTx := s.now, pn := x.pn + 1 }).syncReady n

/-- OWNED and OWNER, and the HELLO that tells the peer (R372). -/
def State.syncOwner (s : State) (n : Nat) : State :=
  let p := s.portOwner n
  let s := (s.setFld (Reg.net n 0) 4 1 (b2n p.isSome)).setFld (Reg.net n 0) 5 3 (p.getD 0)
  if s.linkUp n then s.sendHello n else s.syncReady n

/-! ## Messages in their sender -/

/-- The ports that a COLLECTIVE uses (R386): those of its rings. -/
def collPorts (b : List Byte) : List Nat :=
  let x := num b 72 1
  (([bits x 0 2, bits x 2 2] ++ (if num b 71 1 = 1 then [] else [bits x 4 2, bits x 6 2]))).eraseDups

/-- Every command whose message is in flight on a port: its MSG_SENDs, and the COLLECTIVEs that use it. -/
def State.netCmds (s : State) (n : Nat) : List Nat :=
  (s.port n).msgs.filterMap (·.cmd) ++
    (s.fe.cmds.filter (fun c => c.op == 0x42 && c.block.isSome && !c.isJobOp && c.phase != .dispatched &&
      some c.part == s.portOwner n && (collPorts (c.block.getD [])).contains n)).map (·.id)

/-- Every message in flight on a port ended with a status; a CANCEL follows each that has begun (R374, R378, R381). -/
def State.failPort (s : State) (n st : Nat) : State :=
  let ids := s.netCmds n
  ids.foldl (fun s id => match s.cmd? id with
    | some c => s.complete c st 0
    | none => s) (s.endMsgs ids)

/-- Whether an unacknowledged frame belongs to a message. -/
def TxFrame.of (f : TxFrame) (m : TxMsg) : Bool :=
  f.frame.hdr.type == m.type && f.frame.hdr.srcEp == m.src && f.frame.hdr.dstEp == m.dst && some f.frame.hdr.msgSeq == m.seq

/-- Messages whose every frame is acknowledged: their MSG_SENDs complete (R382). -/
def State.finishMsgs (s : State) (n : Nat) : State :=
  let x := s.port n
  let gone := fun (m : TxMsg) => m.seq.isSome && m.sent == m.total && !x.unacked.any (fun f => f.of m)
  (x.msgs.filter gone).foldl (fun s m => match m.cmd.bind s.cmd? with
    | some c => s.complete c 0 0
    | none => s) (s.updPort n fun x => { x with msgs := x.msgs.filter (fun m => !gone m) })

/-- Both PSN series restarted with a keying (R374, R378): messages go on from their first unacknowledged segment, and aborts
and cancels not acknowledged are sent again. -/
def State.restartPsn (s : State) (n : Nat) : State :=
  s.updPort n fun x => { x with
    msgs := x.msgs.map (fun m => { m with
      sent := (x.unacked.filter (fun f => f.of m)).foldl (fun k f => min k f.frame.hdr.seg) m.sent })
    aborts := (x.unacked.filter (fun f => f.frame.hdr.type == 4)).map
      (fun f => (f.frame.hdr.jobId.toNat, f.frame.hdr.jobEpoch.toNat, true)) ++ x.aborts
    psn := 0, unacked := [], abortOut := false, cancelOut := false, credits := 510
    rxAck := 0, rxDone := [], held := [], naked := [], freed := 0, placed := 0, ackAt := none }

/-- Frames up to ACK_PSN acknowledged (R378, R379): credits, window, reserved credits, and messages that end. -/
def State.takeAck (s : State) (n : Nat) (h : Hdr) : State :=
  let x := s.port n
  let isIn := fun (f : TxFrame) => h.ackValid && f.frame.hdr.psn != h.ackPsn && seqLe f.frame.hdr.psn h.ackPsn
  let gone := x.unacked.filter isIn
  let cut := h.ece && (match x.halvedAt with | some t => t + 2000 ≤ s.now | none => true)
  let w := s.cwnd n
  let w' := if cut then max 16 (w / 2) else min 512 (w + (x.widen + gone.length) / 16)
  ((s.setCwnd n w').updPort n fun x => { x with
    unacked := x.unacked.filter (fun f => !isIn f)
    credits := min 510 (x.credits + h.credits)
    abortOut := x.abortOut && !gone.any (fun f => f.frame.hdr.type == 4)
    cancelOut := x.cancelOut && !gone.any (fun f => f.frame.hdr.type == 5)
    widen := if cut then 0 else (x.widen + gone.length) % 16
    halvedAt := if cut then some s.now else x.halvedAt
    acked := x.acked + gone.foldl (fun k f => k + f.frame.hdr.segBytes) 0 }).finishMsgs n

/-- One unacknowledged frame sent again (R378). -/
def State.resend (s : State) (n : Nat) (f : TxFrame) (rto : Nat) : State :=
  let h := f.frame.hdr
  let g := s.fillHdr n h
  let frame := { f.frame with hdr := { h with credits := g.credits, ackValid := true, ackPsn := g.ackPsn, ece := g.ece } }
  (((s.putFrame n frame).updPort n fun x => { x with
    unacked := x.unacked.map (fun y => if y.frame.hdr.psn = h.psn then
      { frame, sentAt := s.now, rto, resends := y.resends + 1 } else y) }).bumpNet n 0x58 1).countPort n 0x72 1

/-- The key and salt of a keying (R366): KMAC256 of the fleet key over the lower nonce, the higher and the count, little-endian
(log entry 6). -/
def stobelSak (lo hi : BitVec 256) (r : Nat) : BitVec 352 :=
  BitVec.ofNat 352 (leNat (kmac256 Config.fleetKey (leBytes 32 lo.toNat ++ leBytes 32 hi.toNat ++ leBytes 4 r) 44 "STOBEL-SAK"))

/-- The tag of a KEYX frame (R366): KMAC256 of the fleet key over its nonce and its port number, which takes 4 of the frame's 52 bytes
(DEDUCED; log entry 6). -/
def keyxTag (nonce : BitVec 256) (port : Nat) : BitVec 128 :=
  BitVec.ofNat 128 (leNat (kmac256 Config.fleetKey (leBytes 32 nonce.toNat ++ leBytes 4 port) 16 ""))

/-- A port that has exhausted its resends (R378): its messages end, and it keys again, which restarts both series. -/
def State.exhaust (s : State) (n : Nat) : State :=
  let s := (s.failPort n 0x0703).restartPsn n
  let x := s.port n
  let lo := if x.nonce.toNat < x.peerNonce.toNat then x.nonce else x.peerNonce
  let hi := if x.nonce.toNat < x.peerNonce.toNat then x.peerNonce else x.nonce
  s.updPort n fun x => { x with
    keyings := x.keyings + 1, assoc := (x.assoc + 1) % 4, sak := stobelSak lo hi (x.keyings + 1), pn := 0 }

/-! ## The next segment -/

/-- The message of a pair that may send: its first with segments left, unless it waits on RNR (R379, R380). -/
def Port.ready (x : Port) (key : Nat) : Option TxMsg :=
  match (x.msgs.filter (fun m => pairKey m.src m.dst == key)).find? (fun m => m.sent < m.total) with
  | some m =>
    if m.rnrUntil.isSome then none
    else if m.type = 5 then (if x.cancelOut then none else some m)
    else if x.credits = 0 then none
    else some m
  | none => none

/-- The next pair in the round robin with a segment to send, and its message (R379). -/
def Port.nextMsg (x : Port) : Option TxMsg :=
  let keys := ((x.msgs.map (fun m => pairKey m.src m.dst)).eraseDups).mergeSort (fun a b => decide (a ≤ b))
  ((keys.filter (x.lastPair < ·)) ++ (keys.filter (· ≤ x.lastPair))).findSome? x.ready

/-- A message changed in its sender. -/
def Port.setMsg (x : Port) (m m' : TxMsg) : Port := { x with msgs := x.msgs.map (fun y => if y = m then m' else y) }

/-- The MSG_SEND block's fields (R382). -/
structure SendArgs where
  loc   : Nat
  off   : Nat
  bytes : Nat
  key   : Nat
  op    : Nat
  port  : Nat
  src   : Nat
  dst   : Nat
  deriving DecidableEq, Repr

/-- The block of MSG_SEND. -/
def Cmd.sendArgs (c : Cmd) : SendArgs :=
  let b := c.block.getD []
  { loc := num b 0 8, off := num b 8 8, bytes := num b 16 4, key := num b 20 4, op := num b 24 1, port := num b 25 1 % 4,
    src := num b 26 2 % 4096, dst := num b 28 2 % 4096 }

/-- A parameter address in its raw form (R298). -/
def rawLoc (a : Nat) : Loc := if a / 2 ^ 56 = 0x80 then .sram (bits a 24 5) (bits a 0 24) else .dva (a % 2 ^ 56)

/-- A message record staged if the trace takes them (R448, R450): sent (3) or received (4). -/
def State.traceMsg (s : State) (n type : Nat) (h : Hdr) : State :=
  match s.portOwner n with
  | none => s
  | some p =>
    if bitB (s.part p).trace.types 1 then
      s.traceRec p (traceBytes type n (31 + 32 * p) h.type (h.srcEp + 2 ^ 16 * h.dstEp) h.msgSeq.toNat h.msgBytes s.now
        (s.reg (Reg.net n 0x80)).toNat (s.reg (Reg.net n 0x84)).toNat)
    else s

/-- A segment of a message read and sent (R370, R379); an access that fails ends the command. -/
def State.sendSeg (s : State) (n p : Nat) (m : TxMsg) : State :=
  let x := s.port n
  let key := pairKey m.src m.dst
  let seq := m.seq.getD (x.seqs.get (fun _ => 0) key)
  let m' := { m with seq := some seq, sent := m.sent + 1, noted := true }
  let note := fun (h : Hdr) (s : State) => if m.noted then s else s.traceMsg n 3 h
  let spend := fun (s : State) => s.updPort n fun x =>
    { x.setMsg m m' with
      lastPair := key
      seqs := if m.seq.isNone then x.seqs.set (fun _ => 0) key (seq + 1) else x.seqs
      credits := if m.type = 5 then x.credits else x.credits - 1
      cancelOut := x.cancelOut || m.type == 5 }
  let h : Hdr := { type := m.type, last := m'.sent == m.total, srcEp := m.src, dstEp := m.dst, msgSeq := seq, seg := m.sent }
  match m.cmd.bind s.cmd? with
  | none => (note h (spend s)).sendSeq n h (s.jobOf p) []
  | some c =>
    let a := c.sendArgs
    let k := min 8192 (a.bytes - 8192 * m.sent)
    match s.readLoc { s.accOf c 31 false with epoch := s.epoch p } ((rawLoc a.loc).plus (8192 * m.sent)) k with
    | .error e => ((s.endMsgs [c.id]).noteErr e c.queue c.seq.toNat).complete c e.status 0
    | .ok data =>
      let h := { h with segBytes := k, msgBytes := a.bytes, key := BitVec.ofNat 32 a.key, offset := BitVec.ofNat 64 a.off }
      (note h (spend s)).sendSeq n h (s.jobOf p) data

/-- An ABORT ahead of every queued segment (R359, R384). -/
def State.sendAbort (s : State) (n : Nat) (job : Nat × Nat × Bool) : State :=
  let h : Hdr := { type := 4, last := true }
  ((if job.2.2 then s else s.traceMsg n 3 h).updPort n fun x => { x with aborts := x.aborts.drop 1, abortOut := true }).sendSeq n h
    (job.1, job.2.1) []

/-- SEGMENT_TRANSMIT (R379). -/
def execSegmentTransmit (port : Nat) (s : State) : Answer :=
  if 4 ≤ port then .next s
  else match s.portOwner port with
    | none => .next s
    | some p =>
      let x := s.port port
      if !(s.active && s.linkUp port && s.peerReady port && x.unacked.length < min 512 (s.cwnd port)) then .next s
      else match x.aborts with
        | job :: _ => when (!x.abortOut) s (s.sendAbort port job)
        | [] => match x.nextMsg with
          | some m => when (s.configured p) s (s.sendSeg port p m)
          | none => .next s

/-! ## Receiving -/

/-- The lowest PSN not placed, moved past those that are. -/
def advancePsn : Nat → BitVec 32 → List (BitVec 32) → BitVec 32 × List (BitVec 32)
  | 0, a, l => (a, l)
  | k + 1, a, l => if l.contains a then advancePsn k (a + 1) (l.filter (· != a)) else (a, l)

/-- A frame's PSN done: placed, refused, cancelled or discarded under RNR; its shared credit is returned and the
acknowledgement falls due (R378). -/
def State.markDone (s : State) (n : Nat) (h : Hdr) : State :=
  let x := s.port n
  let l := h.psn :: x.rxDone
  let r := advancePsn l.length x.rxAck l
  let s := s.updPort n fun x => { x with
    rxAck := r.1, rxDone := r.2, naked := x.naked.filter (fun a => seqLe r.1 a)
    freed := x.freed + b2n (decide (h.type ≤ 3)), placed := x.placed + 1, ackAt := some (x.ackAt.getD s.now) }
  if 16 ≤ (s.port n).placed then s.sendCtl n { type := 0x10 } else s

/-- A NAK for each PSN missing below a frame, once (R378). -/
def State.sendNaks (s : State) (n : Nat) (psn : BitVec 32) : State :=
  let x := s.port n
  let gap := (psn - x.rxAck).toNat
  let missing := ((List.range (min gap 1024)).map (fun i => x.rxAck + BitVec.ofNat 32 i)).filter (fun a =>
    !x.rxDone.contains a && !x.held.any (fun f => f.hdr.psn == a) && !x.naked.contains a)
  missing.foldl (fun s a => (s.updPort n fun x => { x with naked := a :: x.naked }).sendCtl n { type := 0x11, psn := a }) s

def State.rxPair (s : State) (n : Nat) (h : Hdr) : RxPair := (s.port n).pairs.get (fun _ => {}) (pairKey h.srcEp h.dstEp)
def State.setPair (s : State) (n : Nat) (h : Hdr) (y : RxPair) : State :=
  s.updPort n fun x => { x with pairs := x.pairs.set (fun _ => {}) (pairKey h.srcEp h.dstEp) y }

/-- The oldest message of a pair finished for ordering. -/
def State.nextMsgSeq (s : State) (n : Nat) (h : Hdr) : State :=
  let y := s.rxPair n h
  s.setPair n h { next := y.next + 1, noted := y.noted.filter (fun e => e.2 != y.next) }

/-- What the receiver decides about a message from its header (R377, R380, R385). -/
inductive Verdict where
  | accept (m : RxMsg)
  | refuse (reason : Nat)
  | rnr
  deriving DecidableEq, Repr

/-- Whether a posted buffer is being filled. -/
def State.filling (s : State) (cmd : Nat) : Bool :=
  (List.range 4).any (fun n => (s.port n).pairs.any (fun y => y.2.msg.any (fun m => m.buf == some cmd)))

/-- Whether what is placed at an address waits for a context switch to end: SRAM of a partition that is held (R326, R380). -/
def State.sramWaits (s : State) (p addr : Nat) : Bool := addr / 2 ^ 56 == 0x80 && (s.part p).hold.isSome

/-- The verdict on a message (R377, R380, R385). -/
def State.verdict (s : State) (p : Nat) (h : Hdr) : Verdict :=
  let x := s.part p
  if (h.jobId.toNat, h.jobEpoch.toNat) ≠ s.jobOf p then .rnr
  else match h.type with
    | 1 => match x.regions.find? (fun r => r.kind == 1 && r.ep == h.dstEp && r.key == h.key.toNat) with
      | none => .refuse 1
      | some r =>
        if r.bytes < h.offset.toNat + h.msgBytes then .refuse 2
        else if s.sramWaits p r.addr then .rnr
        else .accept { addr := r.addr + h.offset.toNat, asid := r.asid, user := r.user, ep := r.ep, key := r.key, kind := 1 }
    | 2 => match x.buffers.find? (fun b => b.ep == h.dstEp && !s.filling b.cmd) with
      | none => .rnr
      | some b =>
        if b.bytes < h.msgBytes then .refuse 4
        else if s.sramWaits p b.addr then .rnr
        else .accept { addr := b.addr, asid := b.asid, user := b.user, ep := b.ep, key := 0, kind := 0, buf := some b.cmd }
    | _ => match x.regions.find? (fun r => r.kind == 2 && r.ep == h.dstEp && r.key ≤ h.key.toNat &&
        h.key.toNat < r.key + r.bytes) with
      | none => .refuse 3
      | some r => .accept { addr := 0, asid := r.asid, user := r.user, ep := r.ep, key := r.key, kind := 2 }

/-- A message refused (R377): its REFUSE, the count, and its end for ordering. -/
def State.refuseMsg (s : State) (n : Nat) (h : Hdr) (reason : Nat) : State :=
  (((s.sendCtl n { type := 0x13, srcEp := h.srcEp, dstEp := h.dstEp, msgSeq := h.msgSeq, key := BitVec.ofNat 32 reason }).bumpNet
    n 0x60 1).nextMsgSeq n h).markDone n h

/-- A message that cannot be placed now (R380): RNR, and its frames and the pair's later ones discarded. -/
def State.rnrMsg (s : State) (n : Nat) (h : Hdr) : State :=
  let s := (s.sendCtl n { type := 0x12, srcEp := h.srcEp, dstEp := h.dstEp, msgSeq := h.msgSeq }).bumpNet n 0x5C 1
  let s := s.setPair n h { s.rxPair n h with rnr := true, msg := none }
  let gone := (s.port n).held.filter (fun f => f.hdr.srcEp == h.srcEp && f.hdr.dstEp == h.dstEp)
  let s := s.updPort n fun x => { x with held := x.held.filter (fun f => !gone.contains f) }
  gone.foldl (fun s f => s.markDone n f.hdr) (s.markDone n h)

/-- A whole message placed: a SEND completes the buffer's post (R376). -/
def State.msgPlaced (s : State) (n p : Nat) (h : Hdr) (m : RxMsg) : State :=
  let s := s.nextMsgSeq n h
  match m.buf.bind s.cmd? with
  | some c =>
    (s.updPart p fun x => { x with buffers := x.buffers.filter (fun b => b.cmd != c.id) }).complete c 0 (min h.msgBytes 0xFFFFFF)
  | none => s

/-- The authority with which a message is placed: the posting queue's (R375). -/
def State.rxAcc (s : State) (p : Nat) (m : RxMsg) : Acc :=
  { part := p, asid := m.asid, user := m.user, since := s.fe.nextCmd, epoch := s.epoch p, fn := s.reqFn (p + 1) }

/-- The fence that an ATOMIC_ADD names, unless it cannot be read (R208, R343, R377). -/
def State.addFence (s : State) (p : Nat) (h : Hdr) : Option Nat :=
  match s.fenceKey p h.key.toNat with
  | some k => if (s.fenceFault k).isSome then none else some k
  | none => none

/-- One segment of an accepted message placed, or its add applied (R377, R379). -/
def State.placeSeg (s : State) (n p : Nat) (f : Frame) (m : RxMsg) : State :=
  let h := f.hdr
  let m' := { m with got := h.seg :: m.got }
  let after := fun (s : State) =>
    let s := (s.setPair n h { s.rxPair n h with rnr := false, msg := some m' }).countPort n 0x71 1
    let s := if m'.got.length = segsOf h.msgBytes then s.msgPlaced n p h m' else s
    s.markDone n h
  if m.got.contains h.seg then s.markDone n h
  else if h.type = 3 then
    match s.addFence p h with
    | some k => after (s.setFence k (s.fence k + h.offset))
    | none => s.refuseMsg n h 3
  else match s.writeLoc (s.rxAcc p m) ((rawLoc m.addr).plus (8192 * h.seg)) f.payload with
    | (s', none) => after s'
    | (s', some e) => (s'.noteErr e 0xFFFFF 0).refuseMsg n h 5

/-- Whether a frame may be worked on now: of the pair's oldest message or an older one; while that message has met RNR, only
its first segment, or in PSN order (R379, R380). -/
def State.mayTake (s : State) (n : Nat) (h : Hdr) : Bool :=
  let y := s.rxPair n h
  let d := h.msgSeq - y.next
  let turn := h.psn == (s.port n).rxAck
  2 ^ 31 ≤ d.toNat || (if d = 0 then h.type == 5 || !y.rnr || h.seg == 0 || turn else y.rnr && h.type != 5 && turn)

/-- A frame that may be worked on (R377, R379 to R381). -/
def State.takeFrame (s : State) (n p : Nat) (f : Frame) : State :=
  let h := f.hdr
  let y := s.rxPair n h
  let d := h.msgSeq - y.next
  if 2 ^ 31 ≤ d.toNat then s.markDone n h
  else if h.type = 5 then ((s.nextMsgSeq n h).countPort n 0x71 1).markDone n h
  else if d ≠ 0 ∨ (y.rnr ∧ h.seg ≠ 0) then s.markDone n h
  else match y.msg with
    | some m => if s.sramWaits p m.addr then s.rnrMsg n h else s.placeSeg n p f m
    | none => match s.verdict p h with
      | .accept m => s.placeSeg n p f m
      | .refuse r => s.refuseMsg n h r
      | .rnr => s.rnrMsg n h

/-- Held frames worked on as their turn comes. -/
def State.drainHeld (s : State) (n p : Nat) : Nat → State
  | 0 => s
  | k + 1 =>
    match (s.port n).held.find? (fun f => s.mayTake n f.hdr) with
    | none => s
    | some f => ((s.updPort n fun x => { x with held := x.held.filter (· != f) }).takeFrame n p f).drainHeld n p k

/-- Whether a frame's PSN has arrived before (R378). -/
def Port.seen (x : Port) (psn : BitVec 32) : Bool :=
  !seqLe x.rxAck psn || x.rxDone.contains psn || x.held.any (fun f => f.hdr.psn == psn)

/-- Whether epoch `e` is older than `j` (R385). -/
def jobOlder (e j : Nat) : Bool := 32767 < (e + 65536 - j) % 65536

/-- The counter of the first row of R373 or R384 that drops a frame; an ABORT is not dropped for its job (R359). -/
def State.rxDrop (s : State) (n : Nat) (h : Hdr) : Option Nat :=
  match s.portOwner n with
  | none => some 0x50
  | some p =>
    let job := s.jobOf p
    if h.dstEpoch.toNat ≠ s.epoch p ∨ h.srcEpoch.toNat ≠ s.peerEpoch n then some 0x48
    else if h.type ≠ 4 ∧ h.jobId.toNat = job.1 ∧ (jobOlder h.jobEpoch.toNat job.2 ∨
        (s.fld (Reg.abort p) 1 1 = 1 ∧ h.jobEpoch.toNat = job.2)) then some 0x4C
    else none

/-- What every frame that is taken brings: the congestion mark, the acknowledgement and the credits (R378, R379). -/
def State.rxCommon (s : State) (n : Nat) (f : Frame) : State :=
  (s.updPort n fun x => { x with ece := x.ece || f.ce }).takeAck n f.hdr

/-- An ABORT (R358, R359). -/
def State.takeAbort (s : State) (n p : Nat) (h : Hdr) : State :=
  let mine := s.fld (Reg.abort p) 0 1 == 1 && s.fld (Reg.abort p) 1 1 == 0 && (h.jobId.toNat, h.jobEpoch.toNat) == s.jobOf p
  (if mine then (s.countPort n 0x71 1).jobAbort p (some n) else s.bump (Reg.abort p) 16 16 1).markDone n h

/-- The received record of a message, as its first segment is first accepted (R450). -/
def State.noteRx (s : State) (n : Nat) (h : Hdr) : State :=
  let y := s.rxPair n h
  let e := (b2n (h.type == 5), h.msgSeq)
  let job := (h.jobId.toNat, h.jobEpoch.toNat)
  if h.type = 4 then
    if (s.port n).abortIn = some job then s else (s.traceMsg n 4 h).updPort n fun x => { x with abortIn := some job }
  else if h.seg ≠ 0 ∨ 2 ^ 31 ≤ (h.msgSeq - y.next).toNat ∨ y.noted.contains e then s
  else (s.traceMsg n 4 h).setPair n h { y with noted := e :: y.noted }

/-- A sequenced frame (R373, R378, R379). One dropped by a port that belongs to no partition returns its credit (R373). -/
def State.rxSeq (s : State) (n : Nat) (f : Frame) : State :=
  let h := f.hdr
  match s.rxDrop n h, s.portOwner n with
  | some o, some _ => (s.bumpNet n o 1).countPort n 0x76 1
  | some o, none => (s.bumpNet n o 1).updPort n fun x => { x with freed := x.freed + b2n (decide (h.type ≤ 3)) }
  | none, none => s
  | none, some p =>
    let s := s.rxCommon n f
    if (s.port n).seen h.psn then s.sendCtl n { type := 0x10 }
    else
      let s := (s.sendNaks n h.psn).noteRx n h
      if h.type = 4 then s.takeAbort n p h
      else if s.mayTake n h then (s.takeFrame n p f).drainHeld n p ((s.port n).held.length + 1)
      else s.updPort n fun x => { x with held := x.held ++ [f] }

/-- Whether a frame's header and payload are well formed (R369, R370). -/
def frameOk (f : Frame) : Bool :=
  let h := f.hdr
  h.version == 1 && !h.rsvd && h.srcEp < 4096 && h.dstEp < 4096 && f.payload.length == h.segBytes &&
    (if h.type == 1 || h.type == 2 then
      h.msgBytes ≤ 67108864 && h.seg < segsOf h.msgBytes && h.segBytes == min 8192 (h.msgBytes - 8192 * h.seg) &&
        h.last == (h.seg + 1 == segsOf h.msgBytes)
    else h.segBytes == 0 && h.seg == 0 && h.msgBytes == 0)

/-- The port of a frame that a stop may hold (R432). -/
def heldPort : Instr → Option Nat
  | .rxWrite n _ | .rxSend n _ | .rxAtomicAdd n _ | .rxAbort n _ | .rxCancel n _ | .rxAck n _ | .rxNak n _ | .rxRnr n _
  | .rxRefuse n _ | .rxHello n _ _ _ _ _ => some n
  | _ => none

/-- A frame that arrives during a stop (R432): the first of a port while the domains halt is the one that it was receiving at T, which
is held for the release (DEDUCED; log entry 71); any other is discarded and counted. -/
def State.stopFrame (s : State) (n : Nat) (i : Instr) : State :=
  if s.fld Reg.stopStatus 0 3 = 2 ∧ s.fe.stopHeld.any (fun j => heldPort j == some n) = false then s.holdInbound i
  else s.bumpNet n 0x64 1

/-- A frame of a type on a port (R363, R369, R432); a malformed one is discarded and counted. -/
def rxRow (type n : Nat) (f : Frame) (i : Instr) (s : State) (k : State → State) : Answer :=
  if 4 ≤ n then .next s
  else if !(s.alive && s.linkUp n && f.hdr.type == type) then .next s
  else
    let s1 := s.updPort n fun x => { x with lastRx := s.now }
    if s.stopped then .next (s1.stopFrame n i)
    else if !frameOk f then .next (s1.bumpNet n 0x64 1)
    else .next (k s1)

/-- WRITE (R377). -/
def execRxWrite (port : Nat) (f : Frame) (s : State) : Answer := rxRow 1 port f (.rxWrite port f) s (fun s => s.rxSeq port f)
/-- SEND (R377, R380). -/
def execRxSend (port : Nat) (f : Frame) (s : State) : Answer := rxRow 2 port f (.rxSend port f) s (fun s => s.rxSeq port f)
/-- ATOMIC_ADD (R377, R379). -/
def execRxAtomicAdd (port : Nat) (f : Frame) (s : State) : Answer := rxRow 3 port f (.rxAtomicAdd port f) s (fun s => s.rxSeq port f)
/-- ABORT (R359). -/
def execRxAbort (port : Nat) (f : Frame) (s : State) : Answer := rxRow 4 port f (.rxAbort port f) s (fun s => s.rxSeq port f)
/-- CANCEL (R381). -/
def execRxCancel (port : Nat) (f : Frame) (s : State) : Answer := rxRow 5 port f (.rxCancel port f) s (fun s => s.rxSeq port f)
/-- ACK (R378). -/
def execRxAck (port : Nat) (f : Frame) (s : State) : Answer := rxRow 0x10 port f (.rxAck port f) s (fun s => s.rxCommon port f)

/-- NAK (R378): the missing frame is resent at once. -/
def execRxNak (port : Nat) (f : Frame) (s : State) : Answer :=
  rxRow 0x11 port f (.rxNak port f) s (fun s =>
    let s := s.rxCommon port f
    match (s.port port).unacked.find? (fun y => y.frame.hdr.psn == f.hdr.psn) with
    | some y => if (s.portOwner port).isSome then s.resend port y y.rto else s
    | none => s)

/-- A sender's pair set back to a message that met RNR (R380). -/
def Port.setBack (x : Port) (h : Hdr) (now wait : Nat) : Port :=
  let mine := fun (m : TxMsg) => m.src == h.srcEp && m.dst == h.dstEp
  if x.msgs.any (fun m => mine m && m.seq == some h.msgSeq && m.type != 5) then
    { x with msgs := x.msgs.map (fun m =>
        if mine m ∧ m.seq = some h.msgSeq then
          { m with sent := 0, rnrUntil := some (now + wait), rnrSince := some (m.rnrSince.getD now) }
        else if mine m ∧ m.seq.any (fun q => seqLe h.msgSeq q) then { m with sent := 0 }
        else m) }
  else x

/-- RNR (R380). -/
def execRxRnr (port : Nat) (f : Frame) (s : State) : Answer :=
  rxRow 0x12 port f (.rxRnr port f) s (fun s =>
    ((s.rxCommon port f).updPort port fun x => x.setBack f.hdr s.now (1000 * s.fld (Reg.net port 0x40) 16 8)).countPort port
      0x73 1)

/-- REFUSE (R377, R382): the message's command completes with the reason. -/
def execRxRefuse (port : Nat) (f : Frame) (s : State) : Answer :=
  rxRow 0x13 port f (.rxRefuse port f) s (fun s =>
    let s := s.rxCommon port f
    let mine := fun (m : TxMsg) => m.src == f.hdr.srcEp && m.dst == f.hdr.dstEp && m.seq == some f.hdr.msgSeq && m.type != 5
    match (s.port port).msgs.find? mine with
    | none => s
    | some m =>
      let s := s.updPort port fun x => { x with msgs := x.msgs.filter (fun y => !mine y) }
      match m.cmd.bind s.cmd? with
      | some c => s.complete c 0x0704 (f.hdr.key.toNat % 256)
      | none => s)

end Sys2Proof.Machine
end

