-- ==== Sys2Proof/Machine/NetCmds.lean ====
section
/-!
DEFINITION. The network commands of a partition: MSG_SEND (R382), MSG_RECV_POST (R375, R376), COLLECTIVE (R386 to R388) and its
job operations (R383). Log entries 24 and 26 name what the spec leaves open here.
-/
namespace Sys2Proof.Machine

/-- Whether a command starts under an aborted job (R360). -/
def State.jobGone (s : State) (c : Cmd) : Bool :=
  c.aborted || (s.fld (Reg.abort c.part) 0 1 == 1 && s.fld (Reg.abort c.part) 1 1 == 1)

/-- The first check of ports that fails (R382): each held, then each link up with a ready peer. -/
def State.portsCheck (s : State) (p : Nat) (ns : List Nat) : Nat :=
  if ns.any (fun n => !(s.portsOf p).contains n) then 0x0701
  else if ns.any (fun n => !s.linkUp n || !s.peerReady n) then 0x0702
  else 0

/-- Whether a range stays in its space (R17, R298). -/
def Loc.inSpace (l : Loc) (n : Nat) : Bool :=
  match l with
  | .sram _ o => o + n ≤ sramBytes
  | .dva d => d + n ≤ 2 ^ 56

/-! ## MSG_SEND -/

/-- The fields that R382 fixes for each OP, but for the range of BYTES. -/
def SendArgs.fieldsOk (a : SendArgs) : Bool :=
  a.op ≤ 2 && (if a.op == 2 then a.loc == 0 else true) && (if a.op == 1 then a.off == 0 && a.key == 0 else true)

/-- Whether BYTES is in range for OP (R382, check 3). -/
def SendArgs.sizeOk (a : SendArgs) : Bool := if a.op == 2 then a.bytes == 0 else 1 ≤ a.bytes && a.bytes ≤ 67108864

/-- Whether an earlier MSG_SEND of the same pair has not yet handed its message to the port (R379). -/
def State.sendWaits (s : State) (c : Cmd) : Bool :=
  let a := c.sendArgs
  s.fe.cmds.any (fun d => d.id < c.id && d.op == 0x40 && d.part == c.part && d.phase == .started &&
    d.sendArgs.port == a.port && d.sendArgs.src == a.src && d.sendArgs.dst == a.dst)

/-- MSG_SEND handed to its port (R382); it completes when its last frame is acknowledged. -/
def msgSend (s : State) (c : Cmd) : Res :=
  let b := c.block.getD []
  let a := c.sendArgs
  if c.phase = .running then .more s
  else if 4 ≤ num b 25 1 ∨ 4096 ≤ num b 26 2 ∨ 4096 ≤ num b 28 2 ∨ num b 30 34 ≠ 0 then .done s 0x0103 0 none
  else if !a.fieldsOk then .done s 0x0104 0 none
  else match s.parseLoc c.part a.loc true with
    | .error st => .done s st 0 none
    | .ok l =>
      let st := s.portsCheck c.part [a.port]
      if s.jobGone c then .done s 0x0710 0 none
      else if st ≠ 0 then .done s st 0 none
      else if !a.sizeOk then .done s 0x0705 0 none
      else if !l.inSpace a.bytes then .done s 0x0104 0 none
      else if s.sendWaits c then .more s
      else
        let m : TxMsg := { cmd := some c.id, src := a.src, dst := a.dst, type := a.op + 1, total := segsOf a.bytes }
        .more ((s.updPort a.port fun x => { x with msgs := x.msgs ++ [m] }).updCmd c.id fun c => { c with phase := .running })

/-- MSG_SEND (R382). -/
def execMsgSend (cmd : Nat) (s : State) : Answer := .next (runCmd s cmd [0x40] msgSend)

/-! ## MSG_RECV_POST -/

/-- The block of MSG_RECV_POST (R375). -/
structure PostArgs where
  addr  : Nat
  bytes : Nat
  key   : Nat
  count : Nat
  kind  : Nat
  tgt   : Nat
  ep    : Nat
  deriving DecidableEq, Repr

def Cmd.postArgs (c : Cmd) : PostArgs :=
  let b := c.block.getD []
  { addr := num b 0 8, bytes := num b 8 8, key := num b 16 4, count := num b 20 4, kind := num b 24 1, tgt := num b 25 1 % 4,
    ep := num b 26 2 % 4096 }

/-- The limits of R375 on a post, in one answer: 0x0103 for reserved bits, 0x0104 for a field out of range, 0x0911 for an SRAM
core outside the partition. -/
def State.postCheck (s : State) (c : Cmd) : Nat :=
  let b := c.block.getD []
  let a := c.postArgs
  let x := s.part c.part
  if 4 ≤ num b 25 1 ∨ (a.kind ≠ 3 ∧ a.tgt ≠ 0) ∨ 4096 ≤ num b 26 2 ∨ num b 28 36 ≠ 0 then 0x0103
  else if a.kind ≤ 1 then
    match s.parseLoc c.part a.addr true with
    | .error st => st
    | .ok l =>
      if a.addr % 64 ≠ 0 ∨ a.bytes = 0 ∨ a.count ≠ 0 then 0x0104
      else if !l.inSpace a.bytes then 0x0104
      else if a.kind = 0 then if 67108864 < a.bytes ∨ a.key ≠ 0 ∨ 65536 ≤ x.buffers.length then 0x0104 else 0
      else if 2 ^ 40 < a.bytes ∨ 4096 ≤ (x.regions.filter (fun r => r.kind == 1)).length ∨
          x.regions.any (fun r => r.kind == 1 && r.ep == a.ep && r.key == a.key) then 0x0104
      else 0
  else if a.kind = 2 then
    if a.addr ≠ 0 ∨ a.bytes ≠ 0 ∨ a.count = 0 ∨ 2 ^ 24 < a.count ∨
        (s.fenceKey c.part (a.key + a.count - 1)).isNone ∨
        4096 ≤ (x.regions.filter (fun r => r.kind == 2)).length then 0x0104
    else 0
  else if a.kind = 3 then
    if a.addr ≠ 0 ∨ a.bytes ≠ 0 ∨ a.count ≠ 0 ∨ a.tgt = 3 ∨ (a.tgt = 0 ∧ a.key ≠ 0) then 0x0104 else 0
  else 0x0104

/-- A row of MSG_RECV_POST: a block of its kind that passes its checks (R360, R375). -/
def postRow (kind : Nat) (s : State) (c : Cmd) (k : PostArgs → Res) : Res :=
  let a := c.postArgs
  if a.kind ≤ 3 ∧ a.kind ≠ kind then .more s
  else if c.phase = .running then k a
  else
    let st := s.postCheck c
    if st ≠ 0 then .done s st 0 none
    else if (s.portsOf c.part).isEmpty then .done s 0x0701 0 none
    else if s.jobGone c then .done s 0x0710 0 none
    else k a

/-- RECV_POST_BUFFER (R376): the buffer joins its endpoint's queue, and the post waits for a SEND. -/
def execRecvPostBuffer (cmd : Nat) (s : State) : Answer :=
  .next (runCmd s cmd [0x41] fun s c => postRow 0 s c fun a =>
    if c.phase = .running then .more s
    else .more ((s.updPart c.part fun x => { x with
      buffers := x.buffers ++ [{ ep := a.ep, cmd := c.id, addr := a.addr, bytes := a.bytes, asid := c.asid,
                                 user := c.cls == 2 }] }).updCmd c.id fun c => { c with phase := .running }))

/-- RECV_POST_REGION (R376). -/
def execRecvPostRegion (cmd : Nat) (s : State) : Answer :=
  .next (runCmd s cmd [0x41] fun s c => postRow 1 s c fun a =>
    .done (s.updPart c.part fun x => { x with
      regions := x.regions ++ [{ ep := a.ep, key := a.key, kind := 1, addr := a.addr, bytes := a.bytes, asid := c.asid,
                                 user := c.cls == 2 }] }) 0 0 none)

/-- RECV_POST_FENCES (R376). -/
def execRecvPostFences (cmd : Nat) (s : State) : Answer :=
  .next (runCmd s cmd [0x41] fun s c => postRow 2 s c fun a =>
    .done (s.updPart c.part fun x => { x with
      regions := x.regions ++ [{ ep := a.ep, key := a.key, kind := 2, addr := 0, bytes := a.count, asid := c.asid,
                                 user := c.cls == 2 }] }) 0 0 none)

/-- Whether a message accepted under an entry is not yet placed (R376). -/
def State.entryBusy (s : State) (p : Nat) (a : PostArgs) : Bool :=
  (s.portsOf p).any (fun n => (s.port n).pairs.any (fun y => y.2.msg.any (fun m =>
    m.ep == a.ep && m.kind == a.tgt && m.kind != 0 && m.key == a.key)))

/-- The oldest unfilled buffer of an endpoint taken away; its post completes with 0 (R376). -/
def State.removeBuffer (s : State) (p ep : Nat) : State :=
  match (s.part p).buffers.find? (fun b => b.ep == ep && !s.filling b.cmd) with
  | none => s
  | some b =>
    let s := s.updPart p fun x => { x with buffers := x.buffers.filter (fun y => y.cmd != b.cmd) }
    match s.cmd? b.cmd with
    | some d => s.complete d 0 0
    | none => s

/-- RECV_POST_REMOVE (R376): the entry goes at once; the command waits for the messages accepted under it. -/
def execRecvPostRemove (cmd : Nat) (s : State) : Answer :=
  .next (runCmd s cmd [0x41] fun s c => postRow 3 s c fun a =>
    if c.phase = .running then if s.entryBusy c.part a then .more s else .done s 0 0 none
    else if a.tgt = 0 then .done (s.removeBuffer c.part a.ep) 0 0 none
    else
      let s1 := s.updPart c.part fun x => { x with
        regions := x.regions.filter (fun r => !(r.kind == a.tgt && r.ep == a.ep && r.key == a.key)) }
      if s1.entryBusy c.part a then .more (s1.updCmd c.id fun c => { c with phase := .running }) else .done s1 0 0 none)

/-! ## COLLECTIVE -/

/-- The block of COLLECTIVE (R386). -/
structure Coll where
  src    : Tensor
  dst    : Tensor
  op     : Nat
  red    : Nat
  wide   : Bool
  equal  : Bool
  rank   : Nat
  dx     : Nat
  dy     : Nat
  ports  : List Nat
  buf    : Nat
  bufN   : Nat
  deriving DecidableEq, Repr

/-- Members of the group. -/
def Coll.n (x : Coll) : Nat := x.dx * x.dy

/-- Whether a format word is one that reductions accept (R387). -/
def reducible (t : Tensor) : Bool := t.elem ≤ 2 && t.sf == 0

/-- The shapes of an operation (R387; log entry 26). -/
def Coll.shapesOk (x : Coll) : Bool :=
  let s := x.src
  let d := x.dst
  let whole := !(s.sf != 0 && s.across) || (s.rows % s.block == 0 && (x.op != 3 || s.rows / x.n % s.block == 0))
  s.cols == d.cols && (match x.op with
    | 0 => d.rows == s.rows && reducible s && reducible d
    | 1 => d.rows == x.n * s.rows && s.word == d.word && whole
    | 2 => s.rows == x.n * d.rows && reducible s && reducible d
    | _ => d.rows == s.rows && s.rows % x.n == 0 && s.word == d.word && whole)

/-- The limits of R386 and R387 on a block whose descriptors are read. -/
def Coll.limitsOk (x : Coll) (b : List Byte) : Bool :=
  let po := num b 72 1
  x.op ≤ 3 && x.red ≤ 2 && x.rank < x.n && 2 ≤ x.dx && x.dx ≤ 64 && 1 ≤ x.dy && x.dy ≤ 64 && x.shapesOk && dvaOk x.buf &&
    2 * (x.src.rows * x.src.rowBytes) ≤ x.bufN * (if x.dy = 1 then x.dx else x.n) &&
    (x.dy == 1 || ((x.dx != 2 || bits po 0 2 == bits po 2 2) && (x.dy != 2 || bits po 4 2 == bits po 6 2)))

/-- The block of a COLLECTIVE with the first check it fails (R285, R300, R386, R387). -/
def State.parseColl (s : State) (c : Cmd) : Except Nat Coll :=
  let b := c.block.getD []
  if 8 ≤ num b 65 1 ∨ 2 ≤ num b 66 1 ∨ num b 67 1 ≠ 0 ∨ num b 73 1 ≠ 0 ∨ 4096 ≤ num b 78 2 ∨ num b 96 32 ≠ 0 then
    .error 0x0103
  else match s.parseTensor c.part b 0 false, s.parseTensor c.part b 32 false with
    | .error st, _ => .error st
    | _, .error st => .error st
    | .ok src, .ok dst =>
      let x : Coll := { src, dst, op := num b 64 1, red := num b 65 1 % 4, wide := bitB (num b 65 1) 2,
                        equal := num b 66 1 == 1, rank := num b 68 2, dx := num b 70 1, dy := num b 71 1,
                        ports := collPorts b, buf := num b 80 8, bufN := num b 88 8 }
      if src.packed ∨ dst.packed then .error 0x0607
      else if !x.limitsOk b then .error 0x0104
      else .ok x

/-- One step of a reduction on FP32 codes (R387), by REDUCE. -/
def redStep (red a b : Nat) : Nat := match red with | 0 => fAdd a b | 1 => fMax a b | _ => fMin a b

/-- An FP32 value in a format, by the rounding mode of its descriptor and the default overflow mode (R42, R43). -/
def Tensor.into (t : Tensor) (v : Val) : Nat × Nat := convElem t.elem t.rnd (defaultIeee t.elem) v

/-- A partial as it travels (R387): FP32, or rounded to the source's format, with the flags of that conversion. -/
def Coll.travel (x : Coll) (v : Nat) : Nat × Nat :=
  if x.wide then (v, 0)
  else
    let y := x.src.into (ofF32 v)
    (toF32 (elemVal x.src.elem y.1), y.2)

/-- The partials of one element's sum over the group (R387): for a ring, rank c + 1 first and then in ring order, where c is the
element's chunk. `peer r` is the element that rank `r` holds, and `own` this member's. Each pair is the rank that forms it and the
partial. -/
def Coll.partials (x : Coll) (chunk own : Nat) (peer : Nat → Nat) : List (Nat × Nat) :=
  let rank := fun i => (chunk + 1 + i) % x.n
  let term := fun i => if rank i = x.rank then own else peer (rank i)
  (List.range (x.n - 1)).foldl (fun acc i =>
    acc ++ [(rank (i + 1), redStep x.red (x.travel (acc.getLast?.getD (0, 0)).2).1 (term (i + 1)))]) [(rank 0, term 0)]

/-- One element's result over the group, with the flags of the partials that this member sends on (R45, R387): all but the last, and
the last too where every member takes the sum. -/
def Coll.reduce (x : Coll) (chunk own : Nat) (peer : Nat → Nat) : Nat × Nat :=
  let ps := x.partials chunk own peer
  let sent := if x.op = 0 then ps else ps.dropLast
  let sum := (ps.getLast?.getD (0, 0)).2
  (if x.op = 0 then (x.travel sum).1 else sum,
   (sent.filter (fun p => p.1 == x.rank)).foldl (fun f p => f ||| (x.travel p.2).2) 0)

/-- Whether the order of a sum is one that R387 fixes: a ring with STRIPE = EQUAL, or a group of two, or no sum. -/
def Coll.fixed (x : Coll) : Bool := x.red != 0 || (x.dy == 1 && (x.equal || x.n == 2))

/-- The element that rank `r` holds at index `i`, as an FP32 code: a free value of the source's format (log entry 26). -/
def Coll.peerAt (x : Coll) (draw i r : Nat) : Nat := toF32 (elemVal x.src.elem (Config.freeNat draw (i * x.n + r)))

/-- The result of element `i` of the source, with the value of this member and the flags of the partial it sends (R387). -/
def Coll.elemAt (x : Coll) (draw i : Nat) (own : Val) : Nat × Nat :=
  let total := x.src.rows * x.src.cols
  if x.fixed then x.reduce (i * x.n / total) (toF32 own) (x.peerAt draw i)
  else (Config.freeNat draw (total * x.n + i) % 2 ^ 32, (x.travel (Config.freeNat draw (total * (x.n + 1) + i) % 2 ^ 32)).2)

/-- The bytes of a reduction's destination, row by row, and the flags of its conversions (R45). -/
def Coll.reduced (x : Coll) (draw : Nat) (rows : List (List Val)) : List (List Byte) × Nat :=
  let flat := rows.flatten
  let first := if x.op = 0 then 0 else x.rank * x.dst.rows * x.dst.cols
  let mine := if x.op = 0 then flat else (flat.drop first).take (x.dst.rows * x.dst.cols)
  let all := flat.zipIdx.map (fun (v, i) => x.elemAt draw i v)
  let out := ((all.drop first).take mine.length).map (fun e => x.dst.into (ofF32 e.1))
  ((chop x.dst.cols x.dst.rows (out.map (·.1))).map (pack (elemBits x.dst.elem)),
   (all.map (·.2) ++ out.map (·.2)).foldl (· ||| ·) 0)

/-- The rows of a gather's or all-to-all's destination: the own block's rows moved, the peers' free (R387). -/
def Coll.moved (x : Coll) (draw : Nat) (rows : List (List Byte)) : List (List Byte) :=
  let per := x.dst.rows / x.n
  let from_ := if x.op = 1 then 0 else x.rank * per
  (List.range x.dst.rows).map (fun m =>
    if m / per = x.rank then rows.getD (from_ + m % per) []
    else (List.range x.dst.rowBytes).map (fun i => Config.freeByte draw (m * x.dst.rowBytes + i)))

/-- The scale plane of a gather's or all-to-all's destination (R52, R387). -/
def Coll.movedScales (x : Coll) (draw : Nat) (plane : List Byte) : List Byte :=
  let part := x.dst.scaleBytes / x.n
  let from_ := if x.op = 1 then 0 else x.rank * part
  (List.range x.dst.scaleBytes).map (fun i =>
    if i / part = x.rank then plane.getD (from_ + i % part) 0 else Config.freeByte draw (x.dst.rows * x.dst.rowBytes + i))

/-- What a COLLECTIVE will write, its destination's rows and its scale plane, and the flags of its conversions. -/
def State.collResult (s : State) (a : Acc) (x : Coll) : Except OpErr (List (List Byte) × List Byte × Nat) :=
  if x.op = 0 ∨ x.op = 2 then
    match s.readTensor a x.src with
    | .error e => .error e
    | .ok rows =>
      let r := x.reduced s.free rows
      .ok (r.1, [], r.2)
  else
    match (List.range x.src.rows).mapM (fun m => s.rowBytes a x.src none m) with
    | .error e => .error e
    | .ok rows =>
      if x.src.sf = 0 then .ok (x.moved s.free rows, [], 0)
      else match s.readDva a x.src.scale x.src.scaleBytes with
        | .error e => .error (.access e)
        | .ok plane => .ok (x.moved s.free rows, x.movedScales s.free plane, 0)

/-- The exchange begun: the operands are checked and read, and until it ends the destination and the scratch buffer hold partial
results (R139, R387). -/
def State.collBegin (s : State) (c : Cmd) (x : Coll) : Res :=
  let a := s.accOf c 31 false
  match s.checkRange a x.buf x.bufN true, s.collResult a x with
  | some e, _ => .fail s e
  | none, .error e => e.res s (3 * s.firstSlice c.part)
  | none, .ok (rows, scales, flags) =>
    let out := (rows.flatten ++ scales).map BitVec.toNat
    let s := if x.op = 0 ∨ x.op = 2 then (s.outerBegin c).touch c.id (3 * s.firstSlice c.part) else s
    .more ((((s.draw.freeTensor a x.dst).fillFree a (.dva x.buf) x.bufN)).updCmd c.id fun c =>
      { c with phase := .running, aux := out, flags })

/-- The exchange ended: the destination written, the flags joined to those of a core of the partition (R47; which one is the model's
choice, log entry 26), and the command ended with its conversions' status (R45). -/
def State.collEnd (s : State) (c : Cmd) (x : Coll) : Res :=
  let a := s.accOf c 31 false
  let bs := c.aux.map (BitVec.ofNat 8)
  let n := x.dst.rows * x.dst.rowBytes
  match s.writeRows a x.dst 0 (chop x.dst.rowBytes x.dst.rows (bs.take n)) with
  | (s1, some e) => .fail s1 e
  | (s1, none) =>
    match s1.writeDva a x.dst.scale (bs.drop n) with
    | (s2, some e) => .fail s2 e
    | (s2, none) =>
      .done (s2.noteConv (3 * s.firstSlice c.part) c.flags 0) (c.convStatus c.flags).1 (c.convStatus c.flags).2 none

/-- A row of COLLECTIVE (R382, R386, R387): its first event begins the exchange and its second, with every peer's part there, ends
it. A reserved OPERATION is rejected by each row. -/
def collective (op : Nat) (s : State) (c : Cmd) : Res :=
  let o := num (c.block.getD []) 64 1
  if o ≠ op ∧ (o ≤ 3 ∨ o = 0x10 ∨ o = 0x11) then .more s
  else match s.parseColl c with
    | .error st => .done s st 0 none
    | .ok x =>
      let st := s.portsCheck c.part x.ports
      if s.jobGone c then .done s 0x0710 0 none
      else if st ≠ 0 then .done s st 0 none
      else if c.phase = .running then s.collEnd c x
      else s.collBegin c x

/-- ALL_REDUCE (R387). -/
def execAllReduce (cmd : Nat) (s : State) : Answer := .next (runCmd s cmd [0x42] (collective 0))
/-- ALL_GATHER (R387). -/
def execAllGather (cmd : Nat) (s : State) : Answer := .next (runCmd s cmd [0x42] (collective 1))
/-- REDUCE_SCATTER (R387). -/
def execReduceScatter (cmd : Nat) (s : State) : Answer := .next (runCmd s cmd [0x42] (collective 2))
/-- ALL_TO_ALL (R387). -/
def execAllToAll (cmd : Nat) (s : State) : Answer := .next (runCmd s cmd [0x42] (collective 3))

/-! ## Jobs -/

/-- Whether a job operation still waits for the partition's network commands (R383): those that have started, and those
dispatched before it. -/
def State.jobBusy (s : State) (c : Cmd) : Bool :=
  s.fe.cmds.any (fun d => d.id != c.id && d.part == c.part && isNetOp d.op &&
    (d.op != 0x41 || d.block.isNone || num (d.block.getD []) 24 1 == 0) && (d.phase != .dispatched || d.id < c.id) &&
    (!d.isJobOp || d.id < c.id))

/-- A job operation once nothing of the partition is in flight; until then it waits under its queue's timeout (R383). -/
def jobRow (op : Nat) (s : State) (c : Cmd) (k : List Byte → Res) : Res :=
  let b := c.block.getD []
  if num b 64 1 ≠ op then .more s
  else if 8 ≤ num b 65 1 ∨ 2 ≤ num b 66 1 ∨ num b 67 1 ≠ 0 ∨ num b 73 1 ≠ 0 ∨ 4096 ≤ num b 78 2 ∨ num b 96 32 ≠ 0 then
    .done s 0x0103 0 none
  else if s.jobBusy c then .more (s.updCmd c.id fun c => { c with phase := .running })
  else k b

/-- JOB_OPEN (R383). -/
def execJobOpen (cmd : Nat) (s : State) : Answer :=
  .next (runCmd s cmd [0x42] fun s c => jobRow 0x10 s c fun b =>
    let job := num b 74 2
    let ep := num b 76 2
    if job = 0 ∨ s.jobOf c.part = (job, ep) then .done s 0x0104 0 none
    else .done (((s.setReg (Reg.job c.part) (BitVec.ofNat 32 (job + 2 ^ 16 * ep))).setFld (Reg.abort c.part) 0 1 1).setFld
      (Reg.abort c.part) 1 3 0) 0 0 none)

/-- JOB_CLOSE (R383). -/
def execJobClose (cmd : Nat) (s : State) : Answer :=
  .next (runCmd s cmd [0x42] fun s c => jobRow 0x11 s c fun _ => .done (s.setFld (Reg.abort c.part) 0 1 0) 0 0 none)

end Sys2Proof.Machine
end

