-- ==== Sys2Proof/Machine/Partition.lean ====
section
/-!
DEFINITION. Making and unmaking partitions (R317 to R320, R327 to R332), scrubs (R216 to R218), and the switch between two
serving contexts (R321 to R326).
-/
namespace Sys2Proof.Machine

/-! ## Units and scrubs -/

/-- A core's units reset (R346): the fabric, the engines, the decode slots, the instruction store and the data cache. What
belongs to the configuration or the error log stays. -/
def State.resetCore (s : State) (k : Nat) : State :=
  let s := s.updCore k fun x =>
    { x with v := [], m := [], x := [], run := none, insns := [], tiles := [], chunks := [], cache := [], arr := [],
             slotUse := [], lanes := [], prog := [] }
  ((s.setReg (Reg.vecStatus k) 0).setReg (Reg.slots k) 0).syncArray k

/-- The counts that any reset of a core clears (R47, R163, R202). -/
def State.clearCounts (s : State) (k : Nat) : State :=
  (((s.setReg (Reg.nanLost k) 0).setReg (Reg.alignLoss k) 0).setReg (Reg.vecReplays k) 0).setReg (Reg.attReplays k) 0

/-- Every unit of a partition reset, with its dispensers (R346). -/
def State.resetUnits (s : State) (p : Nat) : State :=
  (s.coresOf p).foldl (fun s k => (s.resetCore k).clearCounts k) (s.updPart p fun x => { x with fab := [], att := [] })

/-- A run of 128-bit words of a stack's device region, by offset and size in it, written anew with valid check bits (R214). -/
def State.freshRegion (s : State) (st off n : Nat) : State :=
  let w := (stackBase st + usable + off) / 16
  { s with mem := { s.mem with hbmBad := s.mem.hbmBad.clear w (n / 16), hbmOne := s.mem.hbmOne.clear w (n / 16) } }

/-- A core's whole SRAM zeroed with valid check bits. -/
def State.clearSram (s : State) (k : Nat) : State :=
  { s with mem := { s.mem with sram := s.mem.sram.clear (sramKey k 0) (2 ^ 24)
                               sramBad := s.mem.sramBad.clear (sramKey k 0 / 16) (2 ^ 20)
                               sramOne := s.mem.sramOne.clear (sramKey k 0 / 16) (2 ^ 20) } }

/-- The first two steps of a slice's scrub (R216): SRAM and units of its cores; then its fences, sequence descriptors and program
store, which lie one after the other in the device region (R205). -/
def State.scrubSlice (s : State) (sl : Nat) : State :=
  let s := ((List.range 3).map (3 * sl + ·)).foldl (fun s k => (s.resetCore k).clearSram k) s
  ({ s with mem := { s.mem with fences := s.mem.fences.clear (sl * 2 ^ 21) (2 ^ 21) } } : State).freshRegion sl 0x6800000 0x2200000

/-- A stack's usable range zeroed under key `p` (R216, steps 3 and 4). -/
def State.scrubStack (s : State) (st p : Nat) : State :=
  let s := { s with mem := { s.mem with hbm := s.mem.hbm.clear (stackBase st) usable
                                        hbmBad := s.mem.hbmBad.clear (stackBase st / 16) (usable / 16)
                                        hbmOne := s.mem.hbmOne.clear (stackBase st / 16) (usable / 16) } }
  ((((s.setFld (Reg.memStatus st) 4 3 p).setFld (Reg.memStatus st) 7 1 1).setFld (Reg.memStatus st) 8 1 1).setFld
    (Reg.memScrub st) 0 15 24320).setFld (Reg.memScrub st) 15 1 0

/-- A stack whose scrub has begun. -/
def State.beginScrub (s : State) (st : Nat) : State :=
  ((s.setFld (Reg.memScrub st) 0 15 0).setFld (Reg.memScrub st) 15 1 1).setFld (Reg.memStatus st) 8 1 0

/-- Whether a stack is being scrubbed. -/
def State.scrubBusy (s : State) (st : Nat) : Bool := s.fld (Reg.memScrub st) 15 1 == 1

/-- A partition's counters and debug registers at their reset values (R446, R459). -/
def State.clearDebug (s : State) (p : Nat) : State :=
  let s := (s.coresOf p).foldl (fun s k =>
    (s.clearRegs (Reg.ctrCfg k 0) 0x400).updCore k fun x => { x with caps := [] }) s
  s.clearRegs (Reg.traceStatus p) 0x40

/-- The table IDs of a partition's slices invalid, with their generations at 0 (R116, R117), and its decode slots with them. -/
def State.clearTables (s : State) (p : Nat) : State :=
  let ids := (s.slicesOf p).flatMap (fun sl => (List.range 8).map (8 * sl + ·))
  let s := ids.foldl (fun s i => s.updDtab i fun _ => {}) s
  (s.coresOf p).foldl (fun s k => (s.setReg (Reg.slots k) 0).updCore k fun x => { x with slotUse := [], lanes := [] }) s

/-! ## CONFIGURE -/

/-- The block of CONFIGURE (R317). -/
structure ConfArgs where
  first : Nat
  log2  : Nat
  excl  : Nat
  ports : Nat
  win   : Nat
  qb    : Nat
  qn    : Nat
  cb    : Nat
  cn    : Nat
  pool  : Nat
  tabs  : Nat
  deriving DecidableEq, Repr

def Cmd.confArgs (c : Cmd) : ConfArgs :=
  let b := c.block.getD []
  { first := num b 0 1 % 8, log2 := bits (num b 0 1) 3 2, excl := num b 1 1, ports := num b 2 1 % 16,
    win := bits (num b 2 1) 4 1, qb := num b 4 2 % 2048, qn := num b 6 2 % 4096, cb := num b 8 1 % 128, cn := num b 9 1,
    pool := num b 16 8, tabs := num b 24 4 }

/-- The slices that a CONFIGURE names. -/
def ConfArgs.slices (x : ConfArgs) : List Nat := (List.range (2 ^ x.log2)).map (x.first + ·)
/-- The stacks it puts in service. -/
def ConfArgs.inService (x : ConfArgs) : List Nat := x.slices.filter (fun st => !bitB x.excl st)

/-- Whether the reserved bits of R317 are 0. -/
def confRsvdOk (b : List Byte) : Bool :=
  num b 0 1 < 32 && num b 2 1 < 32 && num b 3 1 == 0 && num b 4 2 < 2048 && num b 6 2 < 4096 && num b 8 1 < 128 &&
    num b 10 6 == 0 && num b 28 36 == 0

/-- Whether the fields keep the limits of R317. -/
def ConfArgs.limitsOk (x : ConfArgs) : Bool :=
  1 ≤ x.qb && 1 ≤ x.qn && x.qb + x.qn ≤ 2048 && 1 ≤ x.cb && 1 ≤ x.cn && x.cb + x.cn ≤ 128 && x.pool % 0x200000 == 0 &&
    1 ≤ x.tabs && x.tabs ≤ 262144 && (x.inService.isEmpty || x.pool + 4096 * x.tabs ≤ x.inService.length * usable)

/-- The queue ranges that a partition holds, submission then completion: those of its registers, and from its checks to its end those
of the CONFIGURE that makes it (R318, R319). -/
def State.queueRanges (s : State) (q : Nat) : List ((Nat × Nat) × Nat × Nat) :=
  ((s.fld (Reg.qbase q) 0 11, s.fld (Reg.qbase q) 16 12), s.fld (Reg.cqbase q) 0 7, s.fld (Reg.cqbase q) 16 8) ::
    (s.fe.cmds.filter (fun c => c.op == 0x82 && c.part == q && c.phase == .running && s.pstate q == 1)).map (fun c =>
      ((c.confArgs.qb, c.confArgs.qn), c.confArgs.cb, c.confArgs.cn))

/-- Whether anything a CONFIGURE asks for is taken (R318, check 4). -/
def State.confBusy (s : State) (p : Nat) (x : ConfArgs) : Bool :=
  let others := (List.range 8).filter (fun q => q != p && s.pstate q != 0)
  s.pstate p != 0 || x.slices.any (fun sl => (s.sliceOwner sl).isSome || s.scrubBusy sl) ||
    others.any (fun q => s.fld (Reg.part q) 9 4 &&& x.ports != 0 ||
      (s.queueRanges q).any (fun r => overlap x.qb x.qn r.1.1 r.1.2 || overlap x.cb x.cn r.2.1 r.2.2))

/-- The status of a CONFIGURE's checks (R318). -/
def State.confCheck (s : State) (c : Cmd) : Nat :=
  let x := c.confArgs
  if !confRsvdOk (c.block.getD []) || !x.limitsOk then 0x0104
  else if x.first % 2 ^ x.log2 ≠ 0 then 0x0901
  else if (x.excl ≠ 0 ∧ x.log2 = 0) ∨ x.inService.isEmpty ∨ (ones x.excl 8).any (fun st => !x.slices.contains st) then 0x0911
  else if s.confBusy c.part x then 0x0902
  else 0

/-- A stack trained (R207): its rate code. -/
def State.train (s : State) (rates : BitVec 16) (st : Nat) : State :=
  s.setFld (Reg.memStatus st) 0 2 (bits rates.toNat (2 * st) 2)

/-- The registers of a partition that is being configured (R318, R319, R333). -/
def State.confRegs (s : State) (p : Nat) (x : ConfArgs) : State :=
  let e := s.epoch p
  let s := s.setReg (Reg.part p) (BitVec.ofNat 32
    (1 + 2 ^ 4 * x.first + 2 ^ 7 * x.log2 + 2 ^ 9 * x.ports + 2 ^ 13 * x.win + 2 ^ 24 * e))
  let s := s.setReg (Reg.partStacks p) (BitVec.ofNat 32
    (x.inService.foldl (fun m st => m + 2 ^ st) 0 + 2 ^ 8 * x.excl))
  ((s.setReg (Reg.partDrain p) 0).setReg (Reg.partSwitch p) 0).setReg (Reg.staleDrops p) 0

/-- Whether a stack must be scrubbed for partition `p` (R218). -/
def State.mustScrub (s : State) (p st : Nat) : Bool :=
  s.fld (Reg.memStatus st) 8 1 == 0 || s.fld (Reg.memStatus st) 7 1 == 0 || s.fld (Reg.memStatus st) 4 3 != p

/-- CONFIGURE up to its scrub (R318, R319): checks, training, and the scrubs that R218 requires. -/
def configure (rates : BitVec 16) (s : State) (c : Cmd) : Res :=
  let x := c.confArgs
  let oper := c.f 49 0 8
  if 2 < oper then .done s 0x0104 0 none
  else if oper ≠ 0 ∨ c.phase = .running then .more s
  else
    let st := s.confCheck c
    if st ≠ 0 then .done s st 0 none
    else
      let s1 := x.slices.foldl (fun s n => s.train rates n) s
      if x.inService.any s1.offline then .done s1 0x0311 0 none
      else
        let s2 := x.slices.foldl (fun s n => s.setFld (Reg.memStatus n) 2 1 (b2n (bitB x.excl n))) (s1.confRegs c.part x)
        let s3 := (x.inService.filter (s2.mustScrub c.part)).foldl (fun s n => s.beginScrub n) s2
        .more (s3.updCmd c.id fun c => { c with phase := .running })

/-- CONFIGURE (R319). A reserved OPERATION of PARTITION_CONFIG is rejected here (R306). -/
def execConfigure (cmd : Nat) (rates : BitVec 16) (s : State) : Answer :=
  .next (runCmd s cmd [0x82] (configure rates))

/-- The ports of a partition announced (R372). -/
def State.syncPorts (s : State) (ns : List Nat) : State := ns.foldl (fun s n => s.syncOwner n) s

/-- The end of a CONFIGURE (R319): scrubs finished, ranges fixed, ports given, and everything of the partition empty. -/
def configureDone (s : State) (c : Cmd) : Res :=
  let p := c.part
  let x := c.confArgs
  if c.f 49 0 8 ≠ 0 ∨ c.phase ≠ .running ∨ s.pstate p ≠ 1 then .more s
  else
    let due := x.inService.filter s.scrubBusy
    let s := due.foldl (fun s n => (s.scrubSlice n).scrubStack n p) s
    let s := (s.setReg (Reg.qbase p) (BitVec.ofNat 32 (x.qb + 2 ^ 16 * x.qn))).setReg (Reg.cqbase p)
      (BitVec.ofNat 32 (x.cb + 2 ^ 16 * x.cn))
    let old := s.part p
    let s := s.draw.updPart p fun _ => { ptPool := x.pool, ptTables := x.tabs, kem := s.free + 1, configs := old.configs + 1 }
    let s := ((((s.clearTables p).clearDebug p).setLog p []).syncSec p).setFld (Reg.part p) 0 3 2
    .done (s.syncPorts (s.portsOf p)) 0 (due.length + 256 * x.inService.length) none

/-- CONFIGURE_DONE (R319). -/
def execConfigureDone (cmd : Nat) (s : State) : Answer := .next (runCmd s cmd [0x82] configureDone)

/-! ## PARTITION_RELEASE -/

/-- The bump (R328): the epoch counts up, the partition drains, its BAR4 window closes, and nothing of a peer can be placed any
more (R376). -/
def State.bump8 (s : State) (p : Nat) (by_ : Nat) : State :=
  let s := (s.setFld (Reg.part p) 24 8 (s.epoch p + 1)).setFld (Reg.part p) 0 3 4
  let s := if s.fld Reg.bar4 0 3 = p then s.setFld Reg.bar4 3 1 0 else s
  let s := s.updPart p fun x =>
    { x with drainAt := some s.now, drained := 0, releaseBy := some by_, regions := [], buffers := [], hold := none }
  s.syncPorts (s.portsOf p)

/-- PARTITION_RELEASE up to its bump (R327, R328). -/
def partitionRelease (s : State) (c : Cmd) : Res :=
  if c.phase = .running then .more s
  else if s.pstate c.part = 0 then .done s 0x0913 0 none
  else if !s.configured c.part then .done s 0x0902 0 none
  else .more ((s.updCmd c.id fun c => { c with phase := .running }).bump8 c.part c.id)

/-- PARTITION_RELEASE (R327). -/
def execPartitionRelease (cmd : Nat) (s : State) : Answer := .next (runCmd s cmd [0x83] partitionRelease)

/-- The commands in flight that act in a partition being released, but for the release itself. -/
def State.doomed (s : State) (p : Nat) : List Cmd :=
  s.fe.cmds.filter (fun c => c.part == p && (s.part p).releaseBy != some c.id)

/-- The drain ends the partition's commands (R330): its own without an entry or a signal, the physical function's with 0x0903. -/
def State.endDoomed (s : State) (p : Nat) : State :=
  let cs := s.doomed p
  let s := s.endMsgs (cs.map (·.id))
  let s := cs.foldl (fun s c => if c.fn = 0 then s.retire c 0x0903 0 true else s.dropCmd c) s
  s.updPart p fun x => { x with drained := x.drained + cs.length }

/-- DRAIN_OVERRUN (R330): 50 µs after the bump the units still busy take a compute reset, which aborts a job (R358). -/
def execDrainOverrun (part t : Nat) (s : State) : Answer :=
  if 8 ≤ part then .next s
  else
    let s1 := s.atTime t
    let late := match (s.part part).drainAt with | some d => decide (d + 50000 ≤ s1.now) | none => false
    when (s.active && s.pstate part == 4 && late) s
      ((((s1.endDoomed part).resetUnits part).logDevice
        { kind := 0x30, severity := 4, part := some part, extra := s.epoch part }).jobAbort part none)

/-- Every queue of a function gone, with its tail entries, pending bits, cached contexts and fetched packets (R331). -/
def State.destroyQueues (s : State) (fn : Nat) : State :=
  let mine := fun q => (s.sq q).fn == fn && (s.sq q).enabled
  { s with fe := { s.fe with
      sqs := s.fe.sqs.filter (fun e => e.2.fn != fn)
      cqs := s.fe.cqs.filter (fun e => e.2.fn != fn)
      tails := s.fe.tails.filter (fun e => !mine e.1)
      pend := s.fe.pend.filter (fun e => !mine e.1)
      cache := s.fe.cache.filter (fun q => !mine q)
      fetched := s.fe.fetched.filter (fun f => !mine f.queue)
      heldIde := s.fe.heldIde.filter (fun x => x.1 != fn) } }

/-- Where image slot `j` lies in a device region (R324). -/
def slotOffset (j : Nat) : Nat := 0x8A00000 + j * 0x3000000

/-- Where the image of slice `sl` in slot `j` begins in HBM (R324). -/
def imageBase (sl j : Nat) : Nat := stackBase sl + usable + slotOffset j

/-- The headers of both slots of a slice cleared (R331, step 4). -/
def State.clearImages (s : State) (sl : Nat) : State :=
  [0, 1].foldl (fun s j =>
    let s1 := s.freshRegion sl (slotOffset j) 64
    { s1 with mem := { s1.mem with hbm := s1.mem.hbm.clear (imageBase sl j) 64 } }) s

/-- A port's sender and receiver without its owner's messages (R320, R331). -/
def Port.orphan (x : Port) : Port := { x with msgs := [], aborts := [], held := [], pairs := [], seqs := [] }

/-- The partition's state cleared after its drain (R331), its ports released (R320), and the SRAM of its slices cleared (R216,
R332). -/
def State.clearPartition (s : State) (p : Nat) : State :=
  let old := s.part p
  let ports := s.portsOf p
  let s := s.destroyQueues (p + 1)
  let s := (s.clearRegs (regKey (p + 1) msixBase) 0x8100).setFld (regKey (p + 1) Reg.adminCtl) 31 1 0
  let s := s.updPart p fun _ =>
    { drained := old.drained, releaseBy := old.releaseBy, configs := old.configs }
  let s := (((s.clearTables p).clearDebug p).setLog p []).syncSec p |>.clearRegs (Reg.kvPool p) 0x18
  let s := ((s.setReg (Reg.stepLo p) 0).setReg (Reg.stepHi p) 0).setReg (Reg.partSwitch p) 0
  let s := ((s.setFld (Reg.part p) 3 1 0).setFld (Reg.part p) 9 4 0).setFld (Reg.part p) 0 3 5
  let s := (s.setReg (Reg.job p) 0).setReg (Reg.abort p) 0
  let s := (ports.foldl (fun s n => s.updPort n Port.orphan) s).syncPorts ports
  (s.slicesOf p).foldl (fun s sl =>
    let s := (s.clearImages sl).scrubSlice sl
    if s.offline sl then s.setFld (Reg.memStatus sl) 8 1 0 else s.beginScrub sl) s

/-- DRAIN_END (R330, R331). A drain ends no later than 50 µs after the bump, and DRAIN_US shows no more (DEDUCED, log entry 68). -/
def execDrainEnd (part t : Nat) (s : State) : Answer :=
  if 8 ≤ part then .next s
  else
    let s1 := s.atTime t
    match (s.part part).drainAt with
    | none => .next s
    | some d =>
      let s2 := s1.endDoomed part
      let n := (s2.part part).drained
      let s3 := s2.setReg (Reg.partDrain part)
        (BitVec.ofNat 32 (ceilDiv (min 50000 (s1.now - d)) 1000 + 2 ^ 16 * min 0xFFFF n))
      when (s.active && s.pstate part == 4) s (s3.clearPartition part)

/-- The end of a release (R331, R333): the stacks are zeroed, the slices free, the registers clear but for those that tell how
it went, and the command completes. -/
def State.releaseDone (s : State) (p : Nat) : State :=
  let x := s.part p
  let s := (s.slicesOf p).foldl (fun s sl =>
    let s := s.setFld (Reg.memStatus sl) 2 1 0
    if s.scrubBusy sl then s.scrubStack sl p else s) s
  let s := (s.setReg (Reg.part p) (BitVec.ofNat 32 (2 ^ 24 * s.epoch p))).setReg (Reg.partStacks p) 0
  let s := ((s.setReg (Reg.qbase p) 0).setReg (Reg.cqbase p) 0).updPart p fun _ =>
    { configs := x.configs }
  match x.releaseBy.bind s.cmd? with
  | some c => s.complete c 0 (min x.drained 0xFFFFFF)
  | none => s

/-- RELEASE_SCRUB_DONE (R331). -/
def execReleaseScrubDone (part t : Nat) (s : State) : Answer :=
  if 8 ≤ part then .next s
  else when (s.active && s.pstate part == 5) s ((s.atTime t).releaseDone part)

/-! ## Two contexts in one partition -/

/-- The SRAM regions of R142 that REGIONS names: local offset and size (R322). -/
def regionAreas (r : Nat) : List (Nat × Nat) :=
  let r := if r = 0 then 31 else r
  (if bitB r 0 then [(0x000000, 0x400000)] else []) ++ (if bitB r 1 then [(0x400000, 0x400000)] else []) ++
    (if bitB r 2 then [(0x800000, 0x100000)] else []) ++ (if bitB r 3 then [(0x900000, 0x100000)] else []) ++
    (if bitB r 4 then [(0xA00000, 0x200000)] else [])

/-- The part of a table that lies in areas of a partition's cores, each area `(base, size)` scaled by `unit`. -/
def inAreas {α : Type} (cores : List Nat) (areas : List (Nat × Nat)) (unit : Nat) (t : Tbl α) : Tbl α :=
  t.filter (fun e => cores.any (fun k => areas.any (fun r =>
    sramKey k r.1 / unit ≤ e.1 && e.1 < (sramKey k r.1 + r.2) / unit)))

/-- The shape that an image records for a partition (R324): first slice and size. -/
def State.shape (s : State) (p : Nat) : Nat := s.fld (Reg.part p) 4 5

/-- The image of a partition's on-chip state (R324). -/
def State.cocoon (s : State) (p regions : Nat) : Cocoon :=
  let areas := regionAreas regions
  let ids := (s.slicesOf p).flatMap (fun sl => (List.range 8).map (8 * sl + ·))
  { epoch := s.epoch p, shape := s.shape p, regions := if regions = 0 then 31 else regions,
    step := s.reg64 (Reg.stepLo p) (Reg.stepHi p), sram := inAreas (s.coresOf p) areas 1 s.mem.sram,
    tables := ids.map (fun i => let t := s.dtab i; (i, t.valid, t.gen, t.image)) }

/-- Decode slots and instruction stores of a partition empty (R323). -/
def State.emptyStores (s : State) (p : Nat) : State :=
  (s.coresOf p).foldl (fun s k =>
    (s.setReg (Reg.slots k) 0).updCore k fun x => { x with insns := [], slotUse := [], lanes := [] }) s

/-- A table with the parts in some areas replaced by those of another. -/
def putAreas {α : Type} (cores : List Nat) (areas : List (Nat × Nat)) (unit : Nat) (t u : Tbl α) : Tbl α :=
  let kept := t.filter (fun e => !cores.any (fun k => areas.any (fun r =>
    sramKey k r.1 / unit ≤ e.1 && e.1 < (sramKey k r.1 + r.2) / unit)))
  u.foldl (fun t e => Tbl.insert e.1 e.2 t) kept

/-- An image put back (R323): the regions it holds, with valid check bits, and the table IDs with their generations. -/
def State.thaw (s : State) (p : Nat) (i : Cocoon) : State :=
  let areas := regionAreas i.regions
  let s := { s with mem := { s.mem with sram := putAreas (s.coresOf p) areas 1 s.mem.sram i.sram
                                        sramBad := putAreas (s.coresOf p) areas 16 s.mem.sramBad []
                                        sramOne := putAreas (s.coresOf p) areas 16 s.mem.sramOne [] } }
  let s := i.tables.foldl (fun s t => s.updDtab t.1 fun _ => { valid := t.2.1, gen := t.2.2.1, image := t.2.2.2 }) s
  let s := (s.coresOf p).foldl (fun s k => s.updCore k fun x => { x with cache := [] }) s
  s.emptyStores p

/-- CONTEXT_SAVE and CONTEXT_RESTORE (R322, R323): SHARE 3 is reserved; then the command waits for its hold. -/
def contextStart (s : State) (c : Cmd) : Res :=
  if c.phase = .running then .more s
  else if c.f 50 0 2 = 3 then .done s 0x0104 0 none
  else .more ((s.updPart c.part fun x => { x with hold := some c.id }).updCmd c.id fun c => { c with phase := .running })

/-- CONTEXT_SAVE (R323). -/
def execContextSave (cmd : Nat) (s : State) : Answer := .next (runCmd s cmd [0x8D] contextStart)

/-- CONTEXT_RESTORE (R325). -/
def execContextRestore (cmd : Nat) (s : State) : Answer := .next (runCmd s cmd [0x8E] contextStart)

/-- The command that holds a partition, once it waits for the hold. -/
def State.holder (s : State) (p : Nat) : Option Cmd :=
  match (s.part p).hold.bind s.cmd? with
  | some c => if c.phase == .running && s.canRun c then some c else none
  | none => none

/-- The image traffic begun. -/
def State.switching (s : State) (p : Nat) : State :=
  s.setFld (Reg.part p) 0 3 3

/-- The bytes of a slice's image (R324). -/
def imageBytes (regions : Nat) : Nat := 64 + 3 * (regionAreas regions).foldl (fun n r => n + r.2) 0 + 8 * 320

/-- The record of a table ID in an image (R324): the place of its valid bit and of its generation is the model's choice (log entry 72). -/
def DTable.record (t : DTable) : List Byte :=
  leBytes 1 (b2n t.valid) ++ leBytes 1 t.gen ++ leBytes 62 0 ++ padTo 256 t.image

/-- What follows the header in the image of a slice (R324): the regions of its three cores, in the order of R142, and its eight table
records. -/
def State.cocoonBody (s : State) (sl regions : Nat) : List Byte :=
  (List.range 3).flatMap (fun k => (regionAreas regions).flatMap (fun r =>
    s.mem.sram.readN Config.blankByte (sramKey (3 * sl + k) r.1) r.2)) ++
    (List.range 8).flatMap (fun i => (s.dtab (8 * sl + i)).record)

/-- The header of the image of a slice (R324). -/
def State.cocoonHeader (s : State) (p sl regions : Nat) (body : List Byte) : List Byte :=
  leBytes 2 3 ++ leBytes 1 1 ++ leBytes 1 p ++ leBytes 1 (s.epoch p) ++ leBytes 1 (s.shape p + 32 * (sl - s.firstSlice p)) ++
    leBytes 1 (if regions = 0 then 31 else regions) ++ leBytes 1 0 ++ leBytes 8 (s.reg64 (Reg.stepLo p) (Reg.stepHi p)) ++
    padTo 32 (shake256 body 32) ++ leBytes 16 0

/-- The image of a slice written into its slot, whole words with valid check bits (R214, R324). -/
def State.putImage (s : State) (p sl j regions : Nat) : State :=
  let body := s.cocoonBody sl regions
  let s1 := s.freshRegion sl (slotOffset j) (imageBytes regions)
  { s1 with mem := { s1.mem with
      hbm := s1.mem.hbm.writeN Config.blankByte (imageBase sl j) (s.cocoonHeader p sl regions body ++ body) } }

/-- The first word that reads as uncorrectable among the SRAM areas that a save reads (R213, R338), by its key. -/
def State.badSram (s : State) (p regions : Nat) : Option Nat :=
  ((inAreas (s.coresOf p) (regionAreas regions) 16 s.mem.sramBad).find? (·.2)).map (16 * ·.1)

/-- The first word of a slot's images that reads as uncorrectable (R213), by its address. -/
def State.badImage (s : State) (p slot n : Nat) : Option Nat :=
  (s.mem.hbmBad.find? (fun e => e.2 && (s.slicesOf p).any (fun st =>
    let base := imageBase st slot
    base ≤ 16 * e.1 && 16 * e.1 < base + n))).map (16 * ·.1)

/-- The single-bit errors of the SRAM areas that a save reads, corrected as it reads them (R213). -/
def State.fixAreas (s : State) (p regions : Nat) : State :=
  ((inAreas (s.coresOf p) (regionAreas regions) 16 s.mem.sramOne).filter (·.2)).foldl (fun s e => s.fixSram e.1) s

/-- A held CONTEXT_SAVE or CONTEXT_RESTORE acts (R323 to R325). A restore reads its headers before it writes any SRAM, and State holds
their fields (log entry 72). -/
def State.holdActs (s : State) (p : Nat) (c : Cmd) : State :=
  let slot := c.f 49 0 1
  if (s.slicesOf p).any s.offline then s.complete c 0x0311 0
  else if c.op = 0x8D then
    match s.sweepCores p (fun _ => { write := true, keep := false }) (s.coresOf p) with
    | (s1, some e) => (s1.noteErr e c.queue c.seq.toNat).complete c e.status 0
    | (s1, none) =>
      let s2 := (s1.emptyStores p).setFld (Reg.partSwitch p) slot 1 0
      match s2.badSram p (c.f 51 0 5) with
      | some k => (s2.noteErr { status := 0x0310, part := p, sram := some k } c.queue c.seq.toNat).complete c 0x0310 0
      | none =>
        let s3 := (s.slicesOf p).foldl (fun s sl => s.putImage p sl slot (c.f 51 0 5)) (s2.fixAreas p (c.f 51 0 5))
        (s3.updPart p fun x => { x with slots := x.slots.set (fun _ => {}) slot (s3.cocoon p (c.f 51 0 5)) }).switching p
  else
    let i := (s.part p).slots.get (fun _ => {}) slot
    if s.fld (Reg.partSwitch p) slot 1 = 0 then s.complete c 0x0A04 0
    else match s.badImage p slot 64 with
      | some d => (s.noteErr { status := 0x0310, part := p, dpa := some d } c.queue c.seq.toNat).complete c 0x0310 0
      | none => if i.epoch ≠ s.epoch p ∨ i.shape ≠ s.shape p then s.complete c 0x0A04 0 else s.switching p

/-- Whether the wait of a hold is met: no step is open, and every other command of the partition has completed (R323). -/
def State.quiet (s : State) (p id : Nat) : Bool :=
  s.fld (Reg.part p) 3 1 == 0 && s.fe.cmds.all (fun d => d.id == id || d.part != p)

/-- CONTEXT_HOLD_REACHED (R292, R323). -/
def execContextHoldReached (part : Nat) (s : State) : Answer :=
  if 8 ≤ part then .next s
  else match s.holder part with
    | none => .next s
    | some c => when (s.pstate part == 2 && s.quiet part c.id && s.inTime c) s (s.holdActs part c)

/-- The SRAM areas that a stopped restore leaves with partial results (R214): free bytes. -/
def State.spoilSram (s : State) (p regions : Nat) : State :=
  (s.coresOf p).foldl (fun s k => (regionAreas regions).foldl (fun s r =>
    s.fillFree { part := p, asid := 0, epoch := s.epoch p } (.sram k r.1) r.2) s) s

/-- The end of a context switch (R323, R325): the slot becomes valid, or the image is in place, or its digest fails. -/
def State.switched (s : State) (p : Nat) (c : Cmd) (digestOk : Bool) : State :=
  let slot := c.f 49 0 1
  let us := min 0xFFFF (ceilDiv (s.now - c.start) 1000)
  let s := (s.setFld (Reg.part p) 0 3 2).setFld (Reg.partSwitch p) 16 16 us
  let i := (s.part p).slots.get (fun _ => {}) slot
  if c.op = 0x8D then (s.setFld (Reg.partSwitch p) slot 1 1).complete c 0 0
  else match s.badImage p slot (imageBytes i.regions) with
    | some d => ((s.spoilSram p i.regions).noteErr { status := 0x0310, part := p, dpa := some d } c.queue c.seq.toNat).complete c 0x0310 0
    | none =>
      if digestOk then (s.thaw p i).complete c 0 0
      else ((s.coresOf p).foldl State.clearSram s).complete c 0x0A04 0

/-- CONTEXT_SWITCH_DONE (R323, R325). -/
def execContextSwitchDone (part : Nat) (digestOk : Bool) (t : Nat) (s : State) : Answer :=
  if 8 ≤ part then .next s
  else match s.holder part with
    | none => .next s
    | some c => when (s.pstate part == 3) s ((s.atTime t).switched part c digestOk)

/-- CONTEXT_HOLD_TIMEOUT (R293, R323): nothing is saved or restored, no signal is applied, and the hold ends. -/
def execContextHoldTimeout (part t : Nat) (s : State) : Answer :=
  if 8 ≤ part then .next s
  else
    let s1 := s.atTime t
    match s.holder part with
    | none => .next s
    | some c => 
      when (s.pstate part == 2 && !c.infinite && c.deadline ≤ s1.now && (!s.quiet part c.id || c.deadline < s1.now)) s
        (s1.retire c 0x0401 0 false (some c.deadline))

end Sys2Proof.Machine
end

