-- ==== Sys2Proof/Machine/Seal.lean ====
section
/-!
DEFINITION. Key release and sealed weights (R409 to R415): KEY_IMPORT and WEIGHTS_LOAD_SEALED.
-/
namespace Sys2Proof.Machine

/-- Whether no earlier KEY_IMPORT or WEIGHTS_LOAD_SEALED of the partition is unfinished, one that still waits included (R411). -/
def State.sealTurn (s : State) (c : Cmd) : Bool :=
  !s.fe.cmds.any (fun d => d.id < c.id && d.part == c.part && (d.op == 0x87 || d.op == 0x88))

/-- Whether a partition gave the host a window (R258). -/
def State.hostWindow (s : State) (p : Nat) : Bool := s.fld (Reg.part p) 13 1 == 1

/-- What a key slot holds: a mark, KEY_ID and the 32-byte key. -/
def slotValue (key keyId : List Byte) : Nat := 2 ^ 384 + leNat (padTo 32 key) + 2 ^ 256 * leNat (padTo 16 keyId)
/-- The key of a slot, if it holds one. -/
def State.keySlot (s : State) (p k : Nat) : Option (List Byte) :=
  let v := (s.part p).keys.get (fun _ => 0) k
  if v = 0 then none else some (leBytes 32 v)

/-- KEY_IMPORT (R410, R411). -/
def keyImport (s : State) (c : Cmd) : Res :=
  let b := c.block.getD []
  let slot := num b 0 1
  if 16 ≤ slot ∨ num b 1 7 ≠ 0 ∨ num b 36 28 ≠ 0 ∨ num b 1680 48 ≠ 0 then .done s 0x0103 0 none
  else if s.hostWindow c.part then .done s 0x0A11 0 none
  else if slot = 15 then .done s 0x0104 0 none
  else if !s.sealTurn c then .more s
  else
    let kem := (s.part c.part).kem
    let id := (b.drop 8).take 16
    let kw := kmac256 (Config.kemDecap kem ((b.drop 64).take 1568))
      (padTo 32 (shake256 (padTo 1568 (Config.kemPk kem)) 32)) 32 "DN824-KEYWRAP"
    match Config.gcmOpen kw ((b.drop 24).take 12) id ((b.drop 1632).take 32) ((b.drop 1664).take 16) with
    | none => .done s 0x0A02 0 none
    | some key =>
      .done ((s.updPart c.part fun x => { x with keys := x.keys.set (fun _ => 0) slot (slotValue key id) }).syncSec c.part) 0 0 none

/-- KEY_IMPORT (R410). -/
def execKeyImport (cmd : Nat) (s : State) : Answer := .next (runCmd s cmd [0x88] keyImport)

/-! ## Sealed weights -/

/-- The block of WEIGHTS_LOAD_SEALED (R412). -/
structure LoadArgs where
  src    : Nat
  dst    : Nat
  bytes  : Nat
  setId  : List Byte
  iv     : List Byte
  slot   : Nat
  check  : Bool
  expect : List Byte
  deriving DecidableEq, Repr

def Cmd.loadArgs (c : Cmd) : LoadArgs :=
  let b := c.block.getD []
  { src := num b 0 8, dst := num b 8 8, bytes := num b 16 8, setId := (b.drop 24).take 16, iv := (b.drop 40).take 4,
    slot := num b 44 1 % 16, check := bitB (num b 45 1) 0, expect := (b.drop 64).take 32 }

/-- The number of chunks (R412). -/
def LoadArgs.n (x : LoadArgs) : Nat := ceilDiv x.bytes 65536
/-- The plaintext bytes of chunk `i`. -/
def LoadArgs.len (x : LoadArgs) (i : Nat) : Nat := min 65536 (x.bytes - 65536 * i)
/-- Where the source of chunk `i` starts, and its bytes. -/
def LoadArgs.record (x : LoadArgs) (i : Nat) : Nat × Nat :=
  if x.slot = 15 then (x.src + 65536 * i, x.len i) else (x.src + 65600 * i, 65600)

/-- The destination's first PPA, if it is one contiguous, writable range of partition memory that meets no sealed range (R412, R414). -/
def State.sealTarget (s : State) (a : Acc) (x : LoadArgs) : Option Nat :=
  match s.translate a x.dst 1 true with
  | .ok (.hbm _ ppa, _) =>
    if (List.range (ceilDiv x.bytes 4096)).all (fun i => match s.translate a (x.dst + 4096 * i) 1 true with
        | .ok (.hbm _ q, _) => q == ppa + 4096 * i
        | _ => false) && !s.sealedHit a.part ppa (alignUp x.bytes 4096)
    then some ppa else none
  | _ => none

/-- The rules of R412 that a block must keep. -/
def LoadArgs.ok (x : LoadArgs) : Bool :=
  x.src % 64 == 0 && x.dst % 4096 == 0 && 1 ≤ x.bytes && x.bytes ≤ 2 ^ 40 && dvaOk x.src && dvaOk x.dst &&
    x.dst + x.bytes ≤ 2 ^ 56 && x.src + 65600 * x.n ≤ 2 ^ 56 + 65600

/-- The plaintext of chunk `i` (R412), or the status that ends the load. -/
def State.openChunk (s : State) (a : Acc) (x : LoadArgs) (key : List Byte) (i : Nat) : Except (Nat ⊕ AccErr) (List Byte) :=
  match s.readDva a (x.record i).1 (x.record i).2 with
  | .error e => .error (.inr e)
  | .ok b =>
    if x.slot = 15 then .ok b
    else match Config.gcmOpen key (x.iv ++ leBytes 8 i) (x.setId ++ leBytes 8 x.bytes ++ leBytes 8 i) (b.take (x.len i))
        ((b.drop 65536).take 16) with
      | some p => .ok (padTo (x.len i) p)
      | none => .error (.inl 0x0A03)

/-- The chunks in order up to the first that fails. -/
def State.openChunks (s : State) (a : Acc) (x : LoadArgs) (key : List Byte) : List Nat → Except (Nat ⊕ AccErr) (List (List Byte))
  | [] => .ok []
  | i :: is =>
    match s.openChunk a x key i with
    | .error e => .error e
    | .ok p => match s.openChunks a x key is with
      | .error e => .error e
      | .ok ps => .ok (p :: ps)

/-- The weight-set digest (R413). -/
def LoadArgs.digest (x : LoadArgs) (chunks : List (List Byte)) : List Byte :=
  padTo 32 (shake256 (x.setId ++ leBytes 8 x.bytes ++ chunks.flatMap (fun p => padTo 32 (shake256 p 32))) 32)

/-- What a failed load leaves (R415): every byte it wrote is zero. Which chunks had been written is free where the load stopped early. -/
def State.unload (s : State) (a : Acc) (x : LoadArgs) (all : Bool) : State :=
  ((List.range x.n).foldl (fun (t : State) i =>
    if all || Config.freeBit s.free i then (t.writeDva a (x.dst + 65536 * i) (leBytes (x.len i) 0)).1 else t) s).draw

/-- A load that stops before its end (R415): the bytes that it wrote are zero, and its range is sealed no more. -/
def State.stopLoad (s : State) (c : Cmd) : State :=
  if c.op = 0x87 ∧ c.phase = .running then
    (s.unsealLoad c).unload (s.accOf c (((s.coresOf c.part).filter s.dmaServes).headD 31) true) c.loadArgs false
  else s

/-- The load once its checks have passed (R413 to R415). The memory controllers let it write the range that it has sealed (R414). -/
def State.loadSealed (s : State) (c : Cmd) (a : Acc) (x : LoadArgs) (key : List Byte) : Res :=
  let s := (s.unsealLoad c).updCmd c.id fun c => { c with aux := [] }
  match s.openChunks a x key (List.range x.n) with
  | .error (.inl st) => .done (s.unload a x false) st 0 none
  | .error (.inr e) => .fail (s.unload a x false) e
  | .ok chunks =>
    match s.writeDva a x.dst chunks.flatten with
    | (s1, some e) => .fail (s1.unload a x false) e
    | (s1, none) =>
      let d := x.digest chunks
      if x.check ∧ d ≠ x.expect then .done (s1.unload a x true) 0x0A04 0 none
      else
        let i := (s.part c.part).sets.length
        let s2 := s1.updPart c.part fun p => { p with
          sets := p.sets ++ [(i, x.setId ++ d)]
          sealed := p.sealed ++ c.loading.toList }
        let e := if x.slot = 15 then logEntry 2 i 0 0xFF 0 s.now x.setId d else logEntry 2 i 1 x.slot 0 s.now x.setId d
        .done ((s2.measure c.part e).syncSec c.part) 0 i none

/-- WEIGHTS_LOAD_SEALED (R411 to R415): its checks, which seal the destination; then the load, through the cores whose DMA engines
serve (R413, R337). -/
def weightsLoadSealed (s : State) (c : Cmd) : Res :=
  let b := c.block.getD []
  let x := c.loadArgs
  let p := s.part c.part
  let cores := (s.coresOf c.part).filter s.dmaServes
  let a := s.accOf c (cores.headD 31) true
  if c.phase = .running then
    if cores.isEmpty then .done (s.stopLoad c) 0x0801 0 none
    else withHost c a ((List.range x.n).flatMap (fun i => s.hostRanges a (x.record i).1 (x.record i).2))
      (((cores.take x.n).foldl (fun s k => s.touch c.id k) s).loadSealed c a x
        (if x.slot = 15 then [] else (s.keySlot c.part x.slot).getD []))
  else if 16 ≤ num b 44 1 ∨ 2 ≤ num b 45 1 ∨ num b 46 18 ≠ 0 ∨ num b 96 32 ≠ 0 then .done s 0x0103 0 none
  else if s.hostWindow c.part then .done s 0x0A11 0 none
  else if !s.sealTurn c then .more s
  else if x.slot ≠ 15 ∧ s.keySlot c.part x.slot = none then .done s 0x0A02 0 none
  else if 64 ≤ p.sealed.length ∨ 64 ≤ p.sets.length ∨ 320 ≤ p.plog.length ∨ !x.ok then .done s 0x0104 0 none
  else match s.sealTarget a x with
    | none => .done s 0x0104 0 none
    | some ppa =>
      let r := if x.slot = 15 then [] else [(ppa, alignUp x.bytes 4096)]
      .more (((s.updPart c.part fun p => { p with sealed := p.sealed ++ r }).syncSec c.part).updCmd c.id fun c =>
        { c with phase := .running, aux := r.flatMap (fun r => [r.1, r.2]) })

/-- WEIGHTS_LOAD_SEALED (R415). A host error stops the load. -/
def execWeightsLoadSealed (cmd : Nat) (s : State) : Answer :=
  let s1 := match s.cmd? cmd with
    | some c => if c.hostErr ∧ s.canRun c then (s.stopLoad c).updCmd c.id fun c => { c with aux := [] } else s
    | none => s
  .next (runCmd s1 cmd [0x87] weightsLoadSealed)

end Sys2Proof.Machine
end

