-- ==== Sys2Proof/Machine/Integrity.lean ====
section
/-!
DEFINITION. What the integrity block does when a fault cannot be confined (R343): compute resets (R346 to R349), the unit watchdog,
self-tests and units taken out of service (R340 to R342, R510), Wingbeat and the firmware restart (R344, R345), the crash dump
and the window through which the host reads it and the error log (R350 to R357).
-/
namespace Sys2Proof.Machine

/-! ## Compute reset -/

/-- RESET_COMPUTE (R306): it triggers a compute reset of its partition and completes after the recovery. -/
def resetCompute (s : State) (c : Cmd) : Res :=
  if c.phase = .running then .more s
  else .more ((s.updPart c.part fun x => { x with resetDue := true }).updCmd c.id fun c => { c with phase := .running })

/-- RESET_COMPUTE (R306). -/
def execResetCompute (cmd : Nat) (s : State) : Answer := .next (runCmd s cmd [0x8F] resetCompute)

/-- The KV manager's command that a reset meets: the earliest of the partition that has started and is not firmware-run, or the
STEP_BEGIN that waits for its turn with its step open. -/
def State.kvCurrent (s : State) (p : Nat) : Option Cmd :=
  s.fe.cmds.find? (fun c => c.part == p && c.isKv && c.op != 0x82 &&
    (c.phase == .started || (c.op == 0x04 && c.phase == .running)))

/-- A STEP_BEGIN that has opened its step and not reserved, rolled back (R348, step 3): the step number, the stamps of the pools and the
open step. -/
def State.unopenStep (s : State) (p : Nat) : State :=
  if s.fe.cmds.any (fun c => c.part == p && c.op == 0x04 && c.phase == .running) then
    let n := (s.reg64 (Reg.stepLo p) (Reg.stepHi p) + (2 ^ 64 - 1)) % 2 ^ 64
    let s := (s.setFld (Reg.part p) 3 1 0).setReg64 (Reg.stepLo p) (Reg.stepHi p) n
    (List.range 16).foldl (fun s i =>
      if (s.pool p i).pages = 0 then s
      else s.updPool p i fun x => { x with stamp := (x.stamp + (2 ^ 32 - 1)) % 2 ^ 32 }) s
  else s

/-- The command's whole effect from its journal (R348, step 3). -/
def State.kvFinish (s : State) (c : Cmd) : State :=
  match c.op with
  | 0x04 => runCmd s c.id [0x04] stepBegin
  | 0x38 => runCmd s c.id [0x38] (kvBody seqCreate)
  | 0x39 => runCmd s c.id [0x39] (kvBody seqFork)
  | 0x3A => runCmd s c.id [0x3A] (kvBody seqFree)
  | 0x3B => runCmd s c.id [0x3B] (kvBody kvReserve)
  | 0x3C => runCmd s c.id [0x3C] (kvBody prefixLookup)
  | 0x3D => runCmd s c.id [0x3D] (kvBody prefixInsert)
  | _ => s

/-- The uncorrectable fence words of a partition's slices, each by the first of its two fences; an offline stack can be neither read
nor written (R208). -/
def State.badFences (s : State) (p : Nat) : List Nat :=
  (s.mem.hbmBad.filter (·.2)).filterMap (fun e =>
    let st := 16 * e.1 / stackBase 1
    if s.ownsSlice p st && !s.offline st then fencePairAt st (16 * e.1 % stackBase 1) else none)

/-- Those fences rewritten as 0 with valid check bits, each word with a record (R214, R343). -/
def State.healFences (s : State) (p : Nat) : State :=
  (s.badFences p).foldl (fun s k =>
    let s := { s with mem := { s.mem with hbmBad := s.mem.hbmBad.set (fun _ => false) (fenceDpa k / 16) false } }
    ((s.setFence k 0).setFence (k + 1) 0).log (k / 2 ^ 21)
      { kind := 0x23, severity := 3, part := some p, address := fenceDpa k }) s

/-- Whether a range that a command writes meets one that it reads (R349). -/
def selfClash (rs : List Rng) : Bool :=
  rs.any (fun w => w.write && rs.any (fun r => !r.write && w.clash r))

/-- Whether an attention command has stored some of its output (R194): the rows of a sequence whose chunks are done, but for those that
wait for the rest of their scale block. -/
def AttOp.stored (o : AttOp) : Bool :=
  o.seqs.any (fun q => !o.left.any (fun i => q.first ≤ i && i < q.first + q.chunks) && !o.outs.any (fun y => y.1 == q.row))

/-- The ranges of an attention command's query and output. -/
def State.attRngs (s : State) (c : Cmd) : List Rng :=
  match s.parseAtt c with
  | .ok x => [locRng x.q false, locRng x.o true]
  | .error _ => []
where
  /-- The data plane of a tensor as a range of the command's address space or of a core's SRAM. -/
  locRng (t : Tensor) (write : Bool) : Rng :=
    match t.loc with
    | .dva a => ⟨false, c.asid, a, t.extent, write⟩
    | .sram k o => ⟨true, k, o, t.extent, write⟩

/-- Whether a command's work was done and its end only waited (R238, R455). -/
def Cmd.worked (c : Cmd) : Bool := c.phase == .written || c.phase == .watched

/-- Whether a command has written to a range that it also reads as input, or has executed a store (R349). `x` is its partition before
the reset, with the dispensers. -/
def State.tainted (s : State) (c : Cmd) (x : Part) : Bool :=
  if c.op = 0x22 then c.dirty
  else if c.op = 0x26 then
    (c.worked || (x.att.find? (fun o => o.cmd == c.id)).any AttOp.stored) && selfClash (s.attRngs c)
  else (c.worked || x.fab.any (fun o => o.cmd == c.id && o.stored != [])) && selfClash (s.uses c).2

/-- A command put back to its start (R349): REPLAYS rises by 1, and START stays. -/
def State.rerun (s : State) (c : Cmd) : State :=
  let s := { s with fe := { s.fe with tags := s.fe.tags.map (fun (t : Tag) => if t.cmd = c.id then { t with cmd := 0 } else t) } }
  s.updCmd c.id fun c =>
    { c with phase := .started, replays := c.replays + 1, got := [], hostErr := false, dirty := false, aux := [], watching := [],
             block := if c.op = 0x31 then none else c.block }

/-- A command in flight settled (R349): a sealed load in progress is undone and runs again (R415). Commands that have not started have
done nothing and go on waiting. -/
def State.settleCmd (s : State) (x : Part) (c : Cmd) : State :=
  let firmware := engineOf c.op = 1 ∨ engineOf c.op = 8
  if c.op = 0x40 ∨ c.op = 0x41 ∨ c.op = 0x42 then (s.endMsgs [c.id]).complete c 0x0840 0
  else if c.op = 0x8D ∨ c.op = 0x8E then
    let s := if s.pstate c.part = 3 then s.setFld (Reg.part c.part) 0 3 2 else s
    s.updCmd c.id fun c => { c with phase := .started }
  else if c.op = 0x87 ∧ c.phase = .running then (s.stopLoad c).rerun c
  else if firmware then s
  else if s.tainted c x then s.complete c 0x0840 0
  else s.rerun c

/-- A compute reset of a partition (R346, R348, R358): the KV manager's command, the units, the poisoned fences, the job, the commands
in flight, the record; then every RESET_COMPUTE that asked for it completes. -/
def State.computeReset (s : State) (p : Nat) (kvDone : Bool) : State :=
  let x := s.part p
  let s := s.resetUnits p
  let s := match s.kvCurrent p with
    | some c => if kvDone then s.kvFinish c else s
    | none => s
  let s := ((s.unopenStep p).healFences p).jobAbort p none
  let s := s.updPart p fun x => { x with buffers := [], ends := [] }
  let cs := s.fe.cmds.filter (fun c => c.part == p && c.phase != .dispatched && c.op != 0x8F)
  let s := cs.foldl (fun s c => match s.cmd? c.id with
    | some c => s.settleCmd x c
    | none => s) s
  let s := s.logDevice { kind := 0x30, severity := 4, part := some p, extra := s.epoch p }
  let s := s.updPart p fun x => { x with resetDue := false }
  let rs := s.fe.cmds.filter (fun c => c.part == p && c.phase == .running && c.op == 0x8F)
  rs.foldl (fun s c => s.complete c 0 0) s

/-- COMPUTE_RESET (R348): a reset that is due takes place. -/
def execComputeReset (part : Nat) (kvDone : Bool) (s : State) : Answer :=
  if 8 ≤ part then .next s
  else when (s.active && s.configured part && (s.part part).resetDue) s (s.computeReset part kvDone)

/-- A compute reset made due for a partition that is configured. -/
def State.needReset (s : State) (p : Nat) : State :=
  if s.configured p then s.updPart p fun x => { x with resetDue := true } else s

/-! ## Units that stop -/

/-- A destination of a stopped command left with free bytes. -/
def State.spoilRng (s : State) (a : Acc) (r : Rng) : State :=
  if r.write then s.fillFree a (if r.sram then .sram r.space r.lo else .dva r.lo) r.len else s

/-- A command ended by a fault that cannot be confined (R343), with what it leaves of its destination (R214): in the fabric, in the
attention dispenser or in the vector engines its work stops; elsewhere what a command whose engine has begun writes is left open. -/
def State.endBroken (s : State) (c : Cmd) (core status : Nat) : State :=
  let run := (List.range 24).findSome? (fun k => (s.core k).run.bind (fun r => if r.cmd = c.id then some r.pc else none))
  if c.op = 0x22 then s.stopRun c status (run.getD 0)
  else match (s.fabOp c.part c.id).map (fun _ => s.parseFab c),
      ((s.part c.part).att.find? (fun o => o.cmd == c.id)).map (fun _ => s.parseAtt c) with
    | some (.ok x), _ => s.failFab c core x (.status status)
    | _, some (.ok x) => s.failAtt c core x.o (.status status)
    | _, _ =>
      let s := if c.phase = .dispatched then s
        else (s.uses c).2.foldl (fun s r => s.spoilRng (s.accOf c core true) r) s
      s.complete c status 0

/-- The command that a unit of a core works on, unless that work waits for a decode slot or for host memory; and when the unit last
made progress with it (R343). -/
def State.unitWork (s : State) (core p : Nat) (u : CoreUnit) : Option (Cmd × Nat) :=
  let k := s.core core
  let last := fun n => k.prog.get (fun _ => 0) n
  match u with
  | .array _ => if k.expanding then none else (s.running core).map (fun r => (r.1, last 0))
  | .vector => (k.run.bind (fun r => s.cmd? r.cmd)).map (fun c => (c, last 1))
  | .attention => (s.attRuns core).map (fun r => (r.1, last 2))
  | .dma =>
    (s.fe.cmds.find? (fun c => c.part == p && engineOf c.op == 2 && c.phase == .started && c.cores.contains core &&
      !s.reading c.id)).map (fun c => (c, max c.begun (last 3)))

/-- The number of a unit in a record (R354). -/
def unitNum : CoreUnit → Nat
  | .array a => a
  | .vector => 0
  | .attention => 0
  | .dma => 0

/-- UNIT_WATCHDOG_EXPIRY (R343). -/
def execUnitWatchdogExpiry (core : Nat) (u : CoreUnit) (t : Nat) (s : State) : Answer :=
  if 24 ≤ core ∨ 4 ≤ unitNum u then .next s
  else
    let s0 := s.atTime t
    match s.coreOwner core with
    | none => .next s
    | some p =>
      match s0.unitWork core p u with
      | none => .next s
      | some (c, last) =>
        let ms := s.fld Reg.watchdog 0 16
        when (s.active && s.configured p && ms != 0 && last + 1000000 * ms ≤ s0.now) s
          (((s0.endBroken c core 0x0801).logCore core
            { kind := 0x28, severity := 3, unit := unitNum u, queue := c.queue, submit := c.seq.toNat, status := 0x0801 }).needReset p)

/-! ## Parity of the state that hardware keeps -/

/-- The record of a parity error in state (R334, R343, R355). -/
def State.logParity (s : State) (p : Nat) (core : Option Nat) : State :=
  match core with
  | some k => s.logCore k { kind := 0x21, severity := 3, status := 0x0802 }
  | none => s.logDevice { kind := 0x21, severity := 3, part := some p }

/-- A parity error in the state of a core's sequencer (R343): every command in flight on the core ends with 0x0802, and its partition
takes a compute reset. -/
def State.sequencerParity (s : State) (core : Nat) : State :=
  match s.coreOwner core with
  | none => s
  | some p =>
    let cs := (s.rangeTable core).filter (fun c => c.part == p)
    let s := (s.logParity p (some core)).needReset p
    cs.foldl (fun s c => match s.cmd? c.id with
      | some c => s.endBroken c core 0x0802
      | none => s) s

/-- COMMAND_START (R295). `parity` names a core whose sequencer state fails its parity as it is used (R334). -/
def execCommandStart (cmd : Nat) (parity : Option Nat) (s : State) : Answer :=
  match s.cmd? cmd with
  | none => .next s
  | some c =>
    if !(s.active && s.mayStart c) then .next s
    else match parity with
      | none => .next (s.startCmd c)
      | some core => if (s.uses c).1.contains core then .next (s.sequencerParity core) else .next (s.startCmd c)

/-- SCHEDULER_VISIT (R268 to R271). `ctxLost`: the queue context is uncorrectable; `parity`: the scheduler's state for the queue's
partition fails its parity (R334, R343). -/
def execSchedulerVisit (ctxLost parity : Bool) (s : State) : Answer :=
  match s.nextVisit with
  | some (o, q) =>
    let p := (s.sq q).part
    when (s.active && s.eclosed) s (if parity then (s.logParity p none).needReset p else s.visit o q ctxLost)
  | none => .next s

/-- Whether a dispenser's state fails its parity as a core asks it for work (R334): the partition takes a compute reset. -/
def State.dispenserParity (s : State) (p : Nat) : State := (s.logParity p none).needReset p

/-- TILE_REQUEST (R92): a core asks the dispenser for a fabric tile, or for an attention chunk. -/
def execTileRequest (core : Nat) (chunk parity : Bool) (s : State) : Answer :=
  if 24 ≤ core then .next s
  else match s.coreOwner core with
    | none => .next s
    | some p =>
      when (s.active && !(s.part p).resetDue) s (if parity then s.dispenserParity p
        else if chunk then s.requestChunk core p else s.requestTile core p)

/-- TILE_STEAL (R93): with the dispenser empty, an idle core takes another core's second tile, or its second chunk. -/
def execTileSteal (core victim : Nat) (chunk : Bool) (s : State) : Answer :=
  if 24 ≤ core ∨ 24 ≤ victim then .next s
  else match s.coreOwner core with
    | none => .next s
    | some p => when (s.active && !(s.part p).resetDue) s (if chunk then s.stealChunk core victim p else s.stealTile core victim p)

/-! ## Self-test and retirement -/

/-- The register of a unit's fence or FAULTY bit, and the bit (R102, R163, R202, R361). -/
def unitFlag (u : CoreUnit) (core : Nat) : Nat × Nat :=
  match u with
  | .array a => (Reg.arrayFence core, a)
  | .vector => (Reg.vecFault core, 0)
  | .attention => (Reg.attFault core, 0)
  | .dma => (Reg.dmaFault core, 0)

/-- Whether a unit is out of service. -/
def State.unitOut (s : State) (core : Nat) (u : CoreUnit) : Bool := s.fld (unitFlag u core).1 (unitFlag u core).2 1 == 1

/-- UNIT_RETURN_TO_SERVICE (R342): the physical function writes 0 to a bit that reads 1, and the unit's self-test begins. -/
def execUnitReturnToService (fn core : Nat) (u : CoreUnit) (s : State) : Answer :=
  if 24 ≤ core ∨ 4 ≤ unitNum u then .next s
  else regWriteRow s fn (unitFlag u core).1
    (if fn = 0 ∧ s.unitOut core u = true ∧ !(s.core core).testing.contains u then
      s.updCore core fun k => { k with testing := k.testing ++ [u] }
    else s)

/-- A unit back in service (R342). -/
def State.unitBack (s : State) (core : Nat) (u : CoreUnit) : State :=
  let s := s.setFld (unitFlag u core).1 (unitFlag u core).2 1 0
  match u with
  | .array a =>
    let s := (s.setFld (Reg.arrayStatus core) a 1 1).updCore core fun k =>
      { k with fencePend := k.fencePend &&& (15 ^^^ 2 ^ a), bist := k.bist.filter (· != a) }
    s.enterHead core 3
  | _ => s

/-- What the accumulator-output converter of an array makes of accumulators in rows of 128 columns (R70). -/
def ArraySt.convert (x : ArraySt) (accs : List Nat) : List Nat :=
  accs.zipIdx.map (fun e => accOut (x.cScale.get (fun _ => 0x3F800000) (e.2 % 128)) (x.cBias.get (fun _ => 0) (e.2 % 128)) x.cLo x.cHi
    e.1)

/-- The digest of a pattern's converter output, in canonical FP32: SHAKE256 cut to 128 bits (R70, R340). -/
def ArraySt.digest (x : ArraySt) (accs : List Nat) : List Byte :=
  shake256 ((canonRow 0 0 128 (x.convert accs)).2.flatMap (leBytes 4)) 16

/-- Whether a pattern's run passes (R340): its check holds, and its digest is the one the mask ROM holds. -/
def patternOk (p : Nat) (r : PatternRun) : Bool :=
  r.checked && ({} : ArraySt).digest r.accs == ({} : ArraySt).digest (Config.patternAccs p)

/-- The result of an array's self-test (R340, R341): 0, or the number of the first pattern that failed, plus 1. -/
def selfDiag (runs : List PatternRun) : Nat :=
  match (List.range 4).find? (fun p => !patternOk p (runs.getD p { checked := false })) with
  | some p => p + 1
  | none => 0

/-- An array's converter as its self-test leaves it (R340): scales 1.0, biases +0, and infinite bounds. -/
def State.resetConverter (s : State) (core a : Nat) : State :=
  s.updArr core a fun x => { x with cScale := [], cBias := [], cLo := 0xFF800000, cHi := 0x7F800000 }

/-- The result of the self-test of any unit (R340, R342): of a vector engine, an attention unit or a DMA engine, that of its residue
test. -/
def unitDiag (u : CoreUnit) (passed : Bool) (runs : List PatternRun) : Nat :=
  match u with
  | .array _ => selfDiag runs
  | _ => b2n !passed

/-- The record of a failed self-test (R340, R355): DIAG names the pattern of an array. -/
def State.logSelfTest (s : State) (core : Nat) (u : CoreUnit) (diag : Nat) : State :=
  s.logCore core { kind := 0x40, severity := 2, unit := unitNum u, diag := match u with | .array _ => diag | _ => 0 }

/-- SELF_TEST_DONE (R342). -/
def execSelfTestDone (core : Nat) (u : CoreUnit) (passed : Bool) (runs : List PatternRun) (s : State) : Answer :=
  if 24 ≤ core ∨ 4 ≤ unitNum u then .next s
  else
    let s1 := s.updCore core fun k => { k with testing := k.testing.filter (· != u) }
    let s1 := match u with | .array a => s1.resetConverter core a | _ => s1
    when (s.active && (s.core core).testing.contains u) s
      (if unitDiag u passed runs = 0 then s1.unitBack core u else s1.logSelfTest core u (unitDiag u passed runs))

/-- FENCED_ARRAY_SELF_TEST (R341): the result of the background test, 0 to 4. -/
def execFencedArraySelfTest (core array : Nat) (runs : List PatternRun) (s : State) : Answer :=
  if 24 ≤ core ∨ 4 ≤ array then .next s
  else when (s.active && (s.core core).bist.contains array) s
    (((s.updCore core fun k => { k with bist := k.bist.filter (· != array) }).resetConverter core array).logSelfTest core
      (.array array) (selfDiag runs))

/-- The work that a unit retired by software keeps (R510): the attention unit finishes its current chunk, and a chunk that it has not
begun goes back; the others keep what they hold. -/
def State.keepRunning (s : State) (core p : Nat) (u : CoreUnit) : State :=
  match u with
  | .attention => (s.updCore core fun k => { k with chunks := k.chunks.take 1 }).returnChunks p ((s.core core).chunks.drop 1)
  | _ => s

/-- UNIT_RETIRE (R510): the physical function writes 1 to a FAULTY bit that reads 0. A fence bit has its own row (R102). -/
def execUnitRetire (fn core : Nat) (u : CoreUnit) (s : State) : Answer :=
  if 9 ≤ fn ∨ 24 ≤ core ∨ 4 ≤ unitNum u then .next s
  else match u with
    | .array _ => .next s
    | _ => regWriteRow s fn (unitFlag u core).1
      (if fn = 0 ∧ s.unitOut core u = false then
        let s := s.setFld (unitFlag u core).1 (unitFlag u core).2 1 1
        match s.coreOwner core with
        | some p => (s.keepRunning core p u).endNoAttention p
        | none => s
      else s)

/-! ## Firmware restart -/

/-- The stacks that hold dump parts: those not offline (R351). -/
def State.dumpStacks (s : State) : List Nat := (List.range 8).filter (fun st => !s.offline st)

/-- A crash dump for a trigger at `time`, or skipped while the last one stands (R350, R351). -/
def State.writeDump (s : State) (trigger time stop : Nat) : State :=
  if s.fld Reg.ras 4 1 = 1 then s.bump Reg.ras 8 8 1
  else
    let debug := s.fld Reg.gctlId 0 1 == 1
    let part := fun (device : Bool) (st : Nat) =>
      DumpPart.mk trigger s.ras.dumpId time stop debug st device
    let low := s.dumpStacks.headD 0
    let dump := s.dumpStacks.map (part false) ++ [part true low]
    let s := { s with ras := { s.ras with dump, dumpId := (s.ras.dumpId + 1) % 2 ^ 32 } }
    (s.setFld Reg.ras 5 3 low).setFld Reg.ras 4 1 1

/-- The firmware-run commands in flight that a restart ends: those that have started (R345). -/
def State.firmwareCmds (s : State) : List Cmd :=
  s.fe.cmds.filter (fun c => (engineOf c.op == 1 || engineOf c.op == 8) && (c.phase == .started || c.phase == .running))

/-- A configuration that its command can no longer finish is undone. -/
def State.dropConfigure (s : State) (p : Nat) : State :=
  let s := (s.slicesOf p).foldl (fun s st =>
    (s.setFld (Reg.memScrub st) 15 1 0).setFld (Reg.memStatus st) 2 1 0) s
  (s.setReg (Reg.part p) (BitVec.ofNat 32 (2 ^ 24 * s.epoch p))).setReg (Reg.partStacks p) 0

/-- A firmware-run command ended by the restart with 0x0840. A release goes on without its command. -/
def State.endFirmwareCmd (s : State) (c : Cmd) : State :=
  let s := if c.op = 0x82 ∧ s.pstate c.part = 1 ∧ c.phase = .running then s.dropConfigure c.part else s
  let s := if (c.op = 0x8D ∨ c.op = 0x8E) ∧ s.pstate c.part = 3 then s.setFld (Reg.part c.part) 0 3 2 else s
  (s.stopLoad c).complete c 0x0840 0

/-- What a firmware restart disarms (R344, R429). -/
def State.disarm (s : State) : State :=
  let s := s.setFld Reg.ras 0 1 0
  if s.fld Reg.stopStatus 0 3 = 1 then s.setFld Reg.stopStatus 0 3 0 else s

/-- A firmware restart (R345): the processors are held, firmware-run commands end, the dump is written, every configured partition takes
a compute reset, the error vector is raised, and the boot sequence waits at STATE 5 (R403). -/
def State.fwRestart (s : State) (trigger : Nat) : State :=
  let pend := s.fld Reg.ras 3 1
  let s := (((s.setFld Reg.ras 2 1 1).setFld Reg.ras 1 1 1).disarm).alert 4
  let s := s.logDevice { kind := if trigger = 1 then 0x31 else 0x32, severity := 5 }
  let s := s.firmwareCmds.foldl (fun s c => match s.cmd? c.id with
    | some c => s.endFirmwareCmd c
    | none => s) s
  let s := (List.range 8).foldl (fun s p => s.needReset p) (s.writeDump trigger s.now 0)
  let s := if pend = 1 then s.raiseRas else s
  let s := (s.setFld Reg.secStatus 0 4 5).setFld Reg.secStatus 17 1 0
  { s with boot := { s.boot with sessions := [], inbox := [], large := [] } }

/-- WINGBEAT_ARM (R344): the firmware writes the arming key at Eclosion. -/
def execWingbeatArm (s : State) : Answer :=
  let s1 := ((s.setFld Reg.ras 0 1 1).setReg Reg.missed 0)
  when (s.active && s.eclosed && s.fwRuns) s
    { s1 with ras := { s1.ras with wbLast := (s.reg Reg.wingbeat).toNat } }

/-- WINGBEAT_BEAT (R344). -/
def execWingbeatBeat (s : State) : Answer :=
  when (s.active && s.eclosed && s.fwRuns) s (s.setReg Reg.wingbeat (s.reg Reg.wingbeat + 1))

/-- One sample of the monitor (R344): the fourth consecutive miss declares a hang. -/
def State.wbSample (s : State) : State :=
  let n := (s.reg Reg.wingbeat).toNat
  let s1 := { s with ras := { s.ras with wbLast := n } }
  if n ≠ s.ras.wbLast then s1.setFld Reg.missed 0 3 0
  else
    let m := s.fld Reg.missed 0 3 + 1
    let s2 := s1.setFld Reg.missed 0 3 m
    if 4 ≤ m then s2.fwRestart 1 else s2

/-- WINGBEAT_SAMPLE (R344). -/
def execWingbeatSample (t : Nat) (s : State) : Answer :=
  when (s.active && s.fld Reg.ras 0 1 == 1) s (s.atTime t).wbSample

/-- FIRMWARE_RESTART (R345): the physical function writes 1 to RAS_FW_RESTART. -/
def execFirmwareRestart (fn : Nat) (val : BitVec 32) (s : State) : Answer :=
  regWriteRow s fn 0x150001C (if fn = 0 ∧ bitB val.toNat 0 = true then s.fwRestart 3 else s)

/-! ## The error interrupt and the window -/

/-- RAS_IRQ_WRITE (R357): enabling the interrupt while PENDING reads 1 raises it. -/
def execRasIrqWrite (fn : Nat) (val : BitVec 32) (s : State) : Answer :=
  let old := s.fld Reg.rasIrq 31 1
  let s1 := s.setReg Reg.rasIrq (val &&& 0x800007FF)
  regWriteRow s fn Reg.rasIrq
    (if fn ≠ 0 then s
     else if old = 0 ∧ bitB val.toNat 31 = true ∧ s.fld Reg.ras 3 1 = 1 then s1.raiseRas else s1)

/-- One step of CRC-32 (ISO-HDLC) for a bit. -/
def crcBit (x : Nat) : Nat := if x % 2 = 1 then x / 2 ^^^ 0xEDB88320 else x / 2

/-- CRC-32 (ISO-HDLC) of a byte string (R354). -/
def crc32 (bs : List Byte) : Nat :=
  bs.foldl (fun c b => (List.range 8).foldl (fun x _ => crcBit x) (c ^^^ b.toNat)) 0xFFFFFFFF ^^^ 0xFFFFFFFF

/-- The 64 bytes of an error record (R354). -/
def LogRec.bytes (r : LogRec) : List Byte :=
  let head := leBytes 1 r.kind ++
    leBytes 1 (r.severity % 8 + (match r.part with | some p => 8 + 16 * (p % 8) | none => 0)) ++
    leBytes 1 (r.core % 32) ++ leBytes 1 r.unit ++ leBytes 4 r.seq ++ leBytes 8 r.time ++ leBytes 4 (r.queue % 2 ^ 20) ++
    leBytes 4 r.submit ++ leBytes 2 r.status ++ leBytes 2 r.count ++ leBytes 8 r.address ++ leBytes 4 r.expected ++
    leBytes 4 r.observed ++ leBytes 1 r.diag ++ leBytes 3 r.extra ++ leBytes 12 0
  head ++ leBytes 4 (crc32 head)

/-- The first 32 bytes of a dump part (R351); the number of its directory entries is free. -/
def DumpPart.head (d : DumpPart) (free : Nat) : List Byte :=
  leBytes 2 4 ++ leBytes 1 1 ++ leBytes 1 d.trigger ++ leBytes 4 d.id ++ leBytes 8 d.time ++ leBytes 8 d.stop ++
    leBytes 1 d.stack ++ leBytes 1 (b2n d.debug) ++ leBytes 2 (Config.freeNat free 0) ++ leBytes 4 0

/-- `n` free bytes. -/
def freeBytes (draw n : Nat) : List Byte := (List.range n).map (Config.freeByte draw)

/-- The unit that the window shows (R353): a record of the log, or a unit of a dump part. What the spec does not lay out (the sections of a
dump, a log slot not written) is free. -/
def State.windowUnit (s : State) : List Byte :=
  let st := s.fld Reg.rasWindow 0 3
  let u := s.fld Reg.rasWindow 4 20
  if s.fld Reg.rasWindow 3 1 = 1 then
    match s.ras.log.get (fun _ => none) (logKey st u) with
    | some r => if u < 65536 then r.bytes else freeBytes s.free 64
    | none => freeBytes s.free 64
  else match s.ras.dump.find? (fun d => d.stack == st) with
    | some d => if u = 0 then d.head s.free ++ freeBytes s.free 32 else freeBytes s.free 64
    | none => freeBytes s.free 64

end Sys2Proof.Machine
end

