-- ==== Sys2Proof/Machine/Boot.lean ====
section
/-!
DEFINITION. Chrysalis: the push of a firmware image and its checks (R392 to R396), the fuses (R397, R402, R484), the measurement
registers (R398, R403), the identity (R399, R401) and Eclosion (R391).
-/
namespace Sys2Proof.Machine

/-! ## Measurement and identity -/

/-- The bytes that `n` consecutive registers show. -/
def State.regBytes (s : State) (off n : Nat) : List Byte :=
  (List.range n).flatMap (fun i => leBytes 4 (s.reg (off + 4 * i)).toNat)

/-- A measurement register (R398). -/
def State.mr (s : State) (m : Nat) : List Byte := s.regBytes (Reg.mr m 0) 8

/-- A measurement register extended (R398). -/
def State.extend (s : State) (m t : Nat) (d : List Byte) : State :=
  s.setBytes (Reg.mr m 0) (padTo 32 (shake256 (s.mr m ++ leBytes 4 t ++ d) 32))

/-- The DeviceID public key (R399). -/
def State.deviceIdPk (s : State) : List Byte := Config.slhPk (kmac256 Config.uds (s.mr 0) 96 "DEVICE-ID")

/-- CDI_1 (R399). -/
def State.cdi1 (s : State) : List Byte :=
  kmac256 (kmac256 Config.uds (s.mr 0 ++ s.mr 2) 32 "CDI0") (s.mr 1 ++ s.mr 3) 32 "CDI1"

/-- The seed of the attestation key (R399). -/
def State.attestSeed (s : State) : List Byte := kmac256 s.cdi1 [] 96 "ATTEST-KEY"
/-- The seed of the SPDM key (R399). -/
def State.spdmSeed (s : State) : List Byte := kmac256 s.cdi1 [] 56 "SPDM-KEY"

/-! ## Fuses -/

/-- SEC_FUSE_STATE as the fuses stand; DEBUG_AT_BOOT and KEY_SLOT keep what they hold (R416). -/
def State.syncFuses (s : State) : State :=
  let f := s.fuses
  let s := (s.setFld Reg.gctlId 0 1 (b2n !f.debugClosed)).setFld Reg.fuseState 1 1 (b2n !f.debugClosed)
  ((s.setFld Reg.fuseState 2 4 f.keysProgrammed).setFld Reg.fuseState 6 4 f.keyRevoked).setFld Reg.fuseState 10 7 f.minSvn

/-- Whether the fuse supply is in tolerance (R484). -/
def State.fusePower (s : State) : Bool := s.fld Reg.pwr 9 1 == 1

/-- DEBUG_CLOSE (R402, R484). -/
def execDebugClose (fn : Nat) (val : BitVec 32) (s : State) : Answer :=
  regWriteRow s fn 0x1700028
    (if fn = 0 ∧ val.toNat = 0xDC1 ∧ s.fusePower = true then
      ({ s with fuses := { s.fuses with debugClosed := true } } : State).syncFuses
    else s)

/-! ## The push -/

/-- The bus address of the pushed image. -/
def State.imageAt (s : State) : Nat := s.reg64 Reg.imgLo Reg.imgHi
/-- Its length. -/
def State.imageLen (s : State) : Nat := s.fld Reg.imgBytes 0 27
/-- The length of the certificate the host names; 0 for none (R401). -/
def State.certLen (s : State) : Nat := if s.fld Reg.certBytes 0 17 ≤ 65536 then s.fld Reg.certBytes 0 17 else 0

/-- A push that fails check `e` (R393, R396). -/
def State.pushFails (s : State) (e : Nat) : State :=
  ((s.setFld Reg.secStatus 0 4 s.boot.waiting).setFld Reg.secStatus 4 4 e).bump Reg.secStatus 8 8 1

/-- Read requests of the physical function for `n` bytes, of up to 4,096 bytes each (R252, R392). Which tags they carry is free. They
wait, in order, while the physical function's required stream is not live (R279; log entry 70). -/
def State.askHost (s : State) (addr n : Nat) : State :=
  ((List.range (ceilDiv n s.fe.maxRead)).foldl (fun s i =>
    s.sendFor 0 (.hostRead 0 (Config.freeNat s.free i % 1024) (addr + s.fe.maxRead * i) (min s.fe.maxRead (n - s.fe.maxRead * i)))) s).draw

/-- Whether a read request of the physical function still waits. -/
def State.askHeld (s : State) : Bool :=
  s.fe.heldIde.any (fun x => match x.2 with | .hostRead .. => x.1 == 0 | _ => false)

/-- The length of an image that R394 allows. -/
def imageLenOk (n : Nat) : Bool := 33888 + 64 ≤ n && n ≤ 67108864 && (n - 33888) % 64 == 0

/-- A push accepted at STATE 1 or 5 (R392, R393): check 1 of R396, then the reads. -/
def State.push (s : State) : State :=
  let st := s.fld Reg.secStatus 0 4
  let s := ({ s with boot := { s.boot with waiting := st } } : State).setFld Reg.secStatus 4 4 0
  if s.imageAt % 64 ≠ 0 ∨ !imageLenOk s.imageLen then s.pushFails 1
  else ((s.setFld Reg.secStatus 0 4 2).askHost s.imageAt s.imageLen).askHost (s.reg64 Reg.certLo Reg.certHi) s.certLen

/-- GO (R393): ignored unless STATE is 1 or 5. -/
def execGo (fn : Nat) (val : BitVec 32) (s : State) : Answer :=
  let st := s.fld Reg.secStatus 0 4
  regWriteRow s fn 0x170001C (if fn = 0 ∧ bitB val.toNat 0 = true ∧ (st = 1 ∨ st = 5) then s.push else s)

/-! ## The checks -/

/-- KEY_SLOT of an image (R394). -/
def imageSlot (img : List Byte) : Nat := num img 5 1 % 4
/-- SVN of an image. -/
def imageSvn (img : List Byte) : Nat := num img 8 4
/-- BODY_BYTES of an image. -/
def imageBody (img : List Byte) : Nat := num img 12 4
/-- FW_DIGEST of an image (R395). -/
def imageDigest (img : List Byte) : List Byte := padTo 32 (shake256 (img.take 4096) 32)

/-- The fields of the header that check 3 of R396 covers. -/
def imageHeaderOk (img : List Byte) : Bool :=
  num img 0 4 == 0x4E4C4952 && num img 4 1 == 1 && num img 5 1 < 4 && num img 6 2 < 4 && num img 16 4 < imageBody img &&
    num img 128 3968 == 0

/-- The first check of R396 that a fetched image fails; none if it passes. -/
def State.imageFault (s : State) (readOk : Bool) (img : List Byte) : Option Nat :=
  let hdr := img.take 4096
  let body := (img.drop 4096).take (imageBody img)
  let pk := (img.drop 32).take 64
  let f := s.fuses
  if !readOk then some 2
  else if s.imageLen ≠ 33888 + imageBody img then some 1
  else if !imageHeaderOk img then some 3
  else if !bitB f.keysProgrammed (imageSlot img) ∨ padTo 32 (shake256 pk 32) ≠ padTo 32 (Config.keyDigest (imageSlot img)) then
    some 4
  else if bitB f.keyRevoked (imageSlot img) then some 5
  else if imageSvn img < f.minSvn then some 6
  else if padTo 32 (shake256 body 32) ≠ (img.drop 96).take 32 then some 7
  else if !Config.slhVerify pk hdr (img.drop (4096 + imageBody img)) then some 8
  else none

/-- The fuses after COMMIT_SVN and REVOKE_LOWER of an image (R394, R396). -/
def Fuses.after (f : Fuses) (img : List Byte) : Fuses :=
  let fl := num img 6 2
  { f with minSvn := if bitB fl 0 then max f.minSvn (min 64 (imageSvn img)) else f.minSvn
           keyRevoked := if bitB fl 1 then f.keyRevoked ||| (2 ^ imageSlot img - 1) else f.keyRevoked }

/-- The configuration record that MR2 measures (R398). -/
def State.configRecord (s : State) (img : List Byte) : List Byte :=
  s.regBytes Reg.gctlId 1 ++ leBytes 1 (s.fld Reg.fuseState 0 1) ++ leBytes 1 (imageSlot img) ++ leBytes 1 s.fuses.keyRevoked ++
    leBytes 1 s.fuses.minSvn ++ leBytes 4 (imageSvn img) ++ leBytes 4 s.clk.straps ++ leBytes 16 0

/-- The extension for a passed image (R398, R403): MR1 and MR2 at boot, MR3 after a firmware restart. -/
def State.measureImage (s : State) (img : List Byte) : State :=
  if s.boot.waiting = 5 then (s.extend 3 4 (imageDigest img)).bump Reg.secFw 16 16 1
  else (s.extend 1 2 (imageDigest img)).extend 2 3 (s.configRecord img)

/-- The DeviceID certificate kept if it carries the DeviceID key (R401). -/
def State.keepCert (s : State) (cert : List Byte) : State :=
  if s.certLen ≠ 0 ∧ Config.certKey cert = s.deviceIdPk then
    ({ s with boot := { s.boot with cert } } : State).setFld Reg.secStatus 16 1 1
  else s

/-- Eclosion (R391, step 7; R403): the hand-over, and FW_ABSENT clear. -/
def State.eclose (s : State) : State :=
  let s := (s.setFld Reg.secStatus 17 1 1).setFld Reg.secStatus 0 4 4
  ({ s with boot := { s.boot with eclosed := true } } : State).setFld Reg.ras 2 1 0

/-- A passed image taken (R396, R398, R401, R403): fuses, measurement, certificates, and the hand-over. A blow that lacks its supply
leaves the device waiting for a fundamental reset (R484). -/
def State.accept (s : State) (img cert : List Byte) : State :=
  let f := s.fuses.after img
  if f ≠ s.fuses ∧ s.fusePower = false then s.setFld Reg.secStatus 4 4 0xF
  else
    let s := (({ s with fuses := f } : State).syncFuses.measureImage img).setBytes 0x1700180 (imageDigest img)
    let s := (s.setFld Reg.fuseState 17 2 (imageSlot img)).setFld Reg.secFw 0 7 (imageSvn img)
    (s.keepCert cert).eclose

/-- The image in the firmware part of the device region of the lowest stack in service (R205, R392). -/
def State.storeImage (s : State) (img : List Byte) : State :=
  match s.dumpStacks with
  | [] => s
  | st :: _ =>
    let d := stackBase st + usable
    { s with mem := { s.mem with
        hbm := s.mem.hbm.writeN Config.blankByte d img
        hbmBad := s.mem.hbmBad.clear (d / 16) (ceilDiv img.length 16)
        hbmOne := s.mem.hbmOne.clear (d / 16) (ceilDiv img.length 16) } }

/-- IMAGE_FETCHED (R396): the checks in order on the image that the host's completions brought. -/
def execImageFetched (readOk : Bool) (image cert : List (BitVec 8)) (s : State) : Answer :=
  if !s.alive ∨ s.fld Reg.secStatus 0 4 ≠ 2 ∨ s.fld Reg.secStatus 4 4 = 0xF ∨ s.askHeld = true then .next s
  else if s.stopped then .next (s.holdInbound (.imageFetched readOk image cert))
  else
    let img := padTo s.imageLen image
    let s1 := if readOk then s.storeImage img else s
    .next (match s1.imageFault readOk img with
      | some e => s1.pushFails e
      | none => s1.accept img (padTo s.certLen cert))

end Sys2Proof.Machine
end

