-- ==== Sys2Proof/Machine/Mgmt.lean ====
section
/-!
DEFINITION. The management sideband (chapter 17): sensor samples and throttling (R466 to R469), the alert line (R471, R472), the
mailbox's MCTP control and vendor messages (R461 to R464), and the bus events (R504).
-/
namespace Sys2Proof.Machine

/-! ## Sensors and throttling -/

/-- A temperature in eighths of a degree; none where it is not available (R466). -/
def eighths (x : BitVec 16) : Option Int := if x = 0x8000 then none else some (sgn 16 x.toNat)

/-- Whether a temperature is at or above `c` degrees. -/
def atLeast (x : BitVec 16) (c : Int) : Bool := (eighths x).any (fun e => decide (8 * c ≤ e))
/-- Whether a temperature that is available is below `c` degrees. -/
def below (x : BitVec 16) (c : Int) : Bool := (eighths x).all (fun e => decide (e < 8 * c))

/-- A level moved by one sample (R467). -/
def levelStep (raise lower : Bool) (l : Nat) : Nat := if raise then min 8 (l + 1) else if lower then l - 1 else l

/-- The temperature of a stack in a sample: not available while the stack is offline (R466). -/
def State.stackTemp (s : State) (x : Sensors) (i : Nat) : BitVec 16 := if s.offline i then 0x8000 else x.hbmT.getD i 0x8000

/-- Whether the thermal rule raises, and whether it lowers (R467). -/
def State.thermalRule (s : State) (x : Sensors) : Bool × Bool :=
  let t := s.fld Reg.mbxTherm 0 8
  let h := s.fld Reg.mbxTherm 16 4
  let temps := (List.range 8).map (s.stackTemp x)
  (atLeast x.tj t || temps.any (fun y => atLeast y 95), below x.tj ((t : Int) - h) && temps.all (fun y => below y 92))

/-- Whether the power rule raises, and whether it lowers: LIMIT_W, and 5 % below it (R467). -/
def State.powerRule (s : State) (x : Sensors) : Bool × Bool :=
  let l := s.fld Reg.mbxLimit 0 11
  (decide (10 * l ≤ x.total), decide (2 * x.total < 19 * l))

/-- The throttle level (R467). -/
def Mgmt.level (m : Mgmt) : Nat := max m.thermal m.power

/-- An alert while its condition holds (R471, R472). -/
def State.alertIf (s : State) (b : Bool) (i : Nat) : State := if b then s.alert i else s

/-- Whether L has stood at 8 for 10 ms with TJ at or above THROTTLE_T (R468). -/
def State.throttledOut (s : State) : Bool :=
  s.mgmt.maxSince.any (fun m => m + 10000000 ≤ s.now) && atLeast s.mgmt.sample.tj (s.fld Reg.mbxTherm 0 8)

/-- A sample taken (R466, R467, R471). The throttle level that a stop meets is applied at release (R436). -/
def State.takeSample (s : State) (x : Sensors) : State :=
  let th := s.thermalRule x
  let pw := s.powerRule x
  let m := { s.mgmt with sample := x, thermal := levelStep th.1 th.2 s.mgmt.thermal, power := levelStep pw.1 pw.2 s.mgmt.power }
  let m := { m with maxSince := if m.level = 8 then some (s.mgmt.maxSince.getD s.now) else none }
  let s := (({ s with mgmt := m } : State).setFld Reg.mbxTj 0 16 x.tj.toNat).setFld Reg.mbxPower 0 16 (min x.total 65535)
  let s := if s.stopped then s else s.setFld Reg.clkStatus 0 4 m.level
  let s := (s.alertIf (atLeast x.tj (s.fld Reg.mbxTherm 8 8)) 0).alertIf (m.level != 0) 1
  (s.alertIf s.throttledOut 2).alertIf (m.power != 0) 3

/-- SENSOR_SAMPLE (R466, R467). -/
def execSensorSample (x : Sensors) (t : Nat) (s : State) : Answer := when s.alive s ((s.atTime t).takeSample x)

/-- THROTTLE_MAX_TIMEOUT (R468). -/
def execThrottleMaxTimeout (t : Nat) (s : State) : Answer :=
  let s1 := s.atTime t
  when (s.alive && s1.throttledOut) s (s1.alert 2)

/-! ## Thresholds -/

/-- A number brought within bounds (R469). -/
def clamp (lo hi x : Nat) : Nat := max lo (min hi x)

/-- MBX_THERM_CFG as a write stores it (R469). -/
def thermCfg (v : Nat) : Nat :=
  clamp 60 105 (bits v 0 8) + 2 ^ 8 * clamp 50 105 (bits v 8 8) + 2 ^ 16 * clamp 1 15 (bits v 16 4)
/-- MBX_POWER_LIMIT as a write stores it (R469). -/
def powerCfg (v : Nat) : Nat := clamp 400 1200 (bits v 0 11)

/-- THRESHOLD_WRITE (R469): the physical function writes MBX_THERM_CFG or MBX_POWER_LIMIT. -/
def execThresholdWrite (fn off : Nat) (val : BitVec 32) (s : State) : Answer :=
  if 9 ≤ fn then .next s
  else if off = Reg.mbxTherm then
    regWriteRow s fn off (if fn = 0 then s.setReg off (BitVec.ofNat 32 (thermCfg val.toNat)) else s)
  else if off = Reg.mbxLimit then
    regWriteRow s fn off (if fn = 0 then s.setReg off (BitVec.ofNat 32 (powerCfg val.toNat)) else s)
  else .next s

/-! ## MCTP -/

/-- The mailbox's responder number on an interface: 10 SMBus, 11 I3C (R460). -/
def mbxPort (i3c : Bool) : Nat := if i3c then 11 else 10

/-- Whether the mailbox hardware is served: from the lock of the core PLLs (R463). -/
def State.mailbox (s : State) : Bool := s.alive && s.fld Reg.clkStatus 4 1 == 1

/-- The endpoint ID; 0 while it is not assigned (R461). -/
def State.eid (s : State) : Nat := s.fld Reg.mbxLink 16 8

/-- An MCTP control message: answered at EID 0 and at the device's own (R461). -/
def ctlRow (dest : Nat) (s t : State) : Answer := when (s.mailbox && (dest == 0 || dest == s.eid)) s t

/-- SET_ENDPOINT_ID (R462). EIDs 0 and 255 cannot be assigned (DSP0236). -/
def execSetEndpointId (i3c : Bool) (dest eid : Nat) (s : State) : Answer :=
  ctlRow dest s
    (if eid = 0 ∨ 255 ≤ eid then s.emit (.reply (mbxPort i3c) 1 [2])
     else (s.setFld Reg.mbxLink 16 8 eid).emit (.reply (mbxPort i3c) 1 (leBytes 1 0 ++ leBytes 1 eid)))

/-- GET_ENDPOINT_ID (R462). -/
def execGetEndpointId (i3c : Bool) (dest : Nat) (s : State) : Answer :=
  ctlRow dest s (s.emit (.reply (mbxPort i3c) 2 (leBytes 1 0 ++ leBytes 1 s.eid)))

/-- GET_MCTP_VERSION_SUPPORT (R462): the versions are free. -/
def execGetMctpVersionSupport (i3c : Bool) (dest : Nat) (s : State) : Answer :=
  ctlRow dest s (s.emit (.reply (mbxPort i3c) 4 (leBytes 1 0 ++ Config.mctpVersions)))

/-- GET_MESSAGE_TYPE_SUPPORT (R462). -/
def execGetMessageTypeSupport (i3c : Bool) (dest : Nat) (s : State) : Answer :=
  ctlRow dest s (s.emit (.reply (mbxPort i3c) 5 [0, 4, 0x00, 0x05, 0x06, 0x7E]))

/-- GET_ENDPOINT_UUID (R462). -/
def execGetEndpointUuid (i3c : Bool) (dest : Nat) (s : State) : Answer :=
  ctlRow dest s (s.emit (.reply (mbxPort i3c) 3 (leBytes 1 0 ++ padTo 16 Config.uuid)))

/-- A vendor-defined message (R464): `need` is the length its request data must have, `t` the state and the response data. -/
def vendorRow (i3c : Bool) (dest inst len cmd need : Nat) (s : State) (t : State × Nat × List Byte) : Answer :=
  let answer := fun (s : State) (cc : Nat) (d : List Byte) =>
    s.emit (.reply (mbxPort i3c) cmd (leBytes 1 inst ++ leBytes 1 cc ++ d))
  when (s.mailbox && s.eid != 0 && dest == s.eid) s
    (if len ≠ need then answer s 0x03 [] else answer t.1 t.2.1 t.2.2)

/-- GET_STATUS (R464). -/
def execGetStatus (i3c : Bool) (dest inst len : Nat) (s : State) : Answer :=
  vendorRow i3c dest inst len 0x01 0 s (s, 0,
    leBytes 1 (s.fld Reg.secStatus 0 4) ++ leBytes 1 (s.fld Reg.ras 0 5) ++ leBytes 4 (s.reg Reg.gctlId).toNat ++
      leBytes 1 (s.fld Reg.clkStatus 0 4) ++ leBytes 4 (s.reg Reg.alerts).toNat ++ (List.range 8).flatMap (fun p => leBytes 1 (s.pstate p)))

/-- The block of R466. -/
def State.sensorBlock (s : State) : List Byte :=
  let x := s.mgmt.sample
  let l := s.mgmt.level
  let temp := fun (y : BitVec 16) => leBytes 2 y.toNat
  temp x.tj ++ (List.range 8).flatMap (fun i => temp (x.slices.getD i 0x8000)) ++
    (List.range 8).flatMap (fun i => temp (s.stackTemp x i)) ++
    leBytes 2 (min x.total 65535) ++ leBytes 2 (min x.core 65535) ++ leBytes 2 (min x.hbm 65535) ++
    leBytes 1 (s.fld Reg.clkStatus 0 4) ++
    leBytes 1 (b2n (l != 0 && s.mgmt.thermal == l) + 2 * b2n (l != 0 && s.mgmt.power == l)) ++ leBytes 6 0

/-- GET_SENSORS (R466). -/
def execGetSensors (i3c : Bool) (dest inst len : Nat) (s : State) : Answer :=
  vendorRow i3c dest inst len 0x02 0 s (s, 0, s.sensorBlock)

/-- The FAULTY bits of a core: vector engine, attention unit, DMA engine. -/
def State.faultyBits (s : State) (k : Nat) : Nat :=
  s.fld (Reg.vecFault k) 0 1 + 2 * s.fld (Reg.attFault k) 0 1 + 4 * s.fld (Reg.dmaFault k) 0 1

/-- GET_ERRORS (R464): the instance is a stack and partition index. -/
def execGetErrors (i3c : Bool) (dest inst len : Nat) (s : State) : Answer :=
  let cores := (List.range 3).map (3 * inst + ·)
  vendorRow i3c dest inst len 0x03 0 s (if 8 ≤ inst then (s, 0x02, []) else (s, 0,
    leBytes 4 (s.reg (Reg.memCe inst)).toNat ++ leBytes 4 (s.reg (Reg.memUe inst)).toNat ++
      leBytes 4 (s.reg (Reg.partEvents inst)).toNat ++
      cores.flatMap (fun k => leBytes 1 (s.fld (Reg.arrayStatus k) 0 4)) ++ cores.flatMap (fun k => leBytes 1 (s.faultyBits k))))

/-- GET_THRESHOLDS (R464). -/
def execGetThresholds (i3c : Bool) (dest inst len : Nat) (s : State) : Answer :=
  vendorRow i3c dest inst len 0x04 0 s (s, 0, leBytes 4 (s.reg Reg.mbxTherm).toNat ++ leBytes 4 (s.reg Reg.mbxLimit).toNat)

/-- SET_THRESHOLDS (R464, R469). -/
def execSetThresholds (i3c : Bool) (dest inst len : Nat) (therm power : BitVec 32) (s : State) : Answer :=
  vendorRow i3c dest inst len 0x05 8 s
    ((s.setReg Reg.mbxTherm (BitVec.ofNat 32 (thermCfg therm.toNat))).setReg Reg.mbxLimit (BitVec.ofNat 32 (powerCfg power.toNat)), 0, [])

/-- CLEAR_ALERT (R464, R472). -/
def execClearAlert (i3c : Bool) (dest inst len : Nat) (mask : BitVec 32) (s : State) : Answer :=
  let s1 := s.setReg Reg.alerts (s.reg Reg.alerts &&& ~~~mask)
  vendorRow i3c dest inst len 0x06 4 s (s1, 0, leBytes 4 (s1.reg Reg.alerts).toNat)

/-! ## The buses -/

/-- DYNAMIC_ADDRESS_ASSIGNMENT (R461): ENTDAA or SETDASA. -/
def execDynamicAddressAssignment (addr : Nat) (s : State) : Answer :=
  when s.mailbox s ((s.setFld Reg.mbxLink 7 1 1).setFld Reg.mbxLink 8 7 addr)

/-- I3C_DYNAMIC_ADDRESS_RESET (R461). -/
def execI3cDynamicAddressReset (s : State) : Answer := when s.mailbox s (s.setFld Reg.mbxLink 7 8 0)

/-- IN_BAND_INTERRUPT_ENABLE (R471). -/
def execInBandInterruptEnable (on : Bool) (s : State) : Answer :=
  when s.mailbox s { s with mgmt := { s.mgmt with ibi := on } }

/-- Whether ALERT# is low (R471). -/
def State.alertLow (s : State) : Bool := (s.reg Reg.alerts &&& s.reg Reg.alertEnable) != 0

/-- ALERT_RESPONSE_ADDRESS_READ (R471): the device answers with its address while ALERT# is low. -/
def execAlertResponseAddressRead (s : State) : Answer :=
  when (s.mailbox && s.alertLow) s (s.emit (.reply 10 0x0C (leBytes 1 (s.fld Reg.mbxLink 0 7))))

/-- SMBUS_TIMEOUT (R504): the message on the bus is discarded. A row carries a whole message, so the state holds none in part. -/
def execSmbusTimeout (s : State) : Answer := .next s

end Sys2Proof.Machine
end

