-- ==== Sys2Proof/Machine/NetLink.lean ====
section
/-!
DEFINITION. The links of the ports (R362 to R367, R372, R374): negotiation, keying, hellos, keep-alives, silence, loss and
return, and the timers of the transport (R378, R380).
-/
namespace Sys2Proof.Machine

/-! ## Down and up -/

/-- A link that is no longer up (R364, R374): `code` is its new LINK. -/
def State.dropLink (s : State) (n code : Nat) : State :=
  let was := s.linkUp n
  ((s.setFld (Reg.net n 0) 0 3 code).updPort n fun x => { x with
    downAt := if was then some s.now else x.downAt, sentHello := false, gotHello := false }).syncReady n

/-- Messages given up with what the pairs' numbering of both directions refers to (R374): the peer is another. -/
def State.losePeer (s : State) (n : Nat) : State :=
  (s.failPort n 0x0702).updPort n fun x => { x with msgs := [], seqs := [], pairs := [], held := [] }

/-- The lower and the higher of two nonces (R366). -/
def nonceLo (a b : BitVec 256) : BitVec 256 := if a.toNat < b.toNat then a else b
def nonceHi (a b : BitVec 256) : BitVec 256 := if a.toNat < b.toNat then b else a

/-- Whether a port's 156.25 MHz reference runs (R439: ETH_LOCK). -/
def State.ethLock (s : State) (n : Nat) : Bool := s.fld Reg.clkStatus (13 + n) 1 == 1

/-- LINK_UP (R362, R366): the highest mode both ends allow has trained; the port sends KEYX. -/
def execLinkUp (port : Nat) (fast : Bool) (nonce : BitVec 256) (s : State) : Answer :=
  if 4 ≤ port then .next s
  else
    let ok := s.active && s.ethLock port && s.fld (Reg.net port 0) 0 3 ≤ 1 &&
      s.fld (Reg.net port 4) (if fast then 0 else 1) 1 == 1
    when ok s (((s.setFld (Reg.net port 0) 0 3 2).updPort port fun x =>
      { x with phyUp := true, fast, nonce, keyings := 0, assoc := 0, pn := 0, lastRx := s.now, lastTx := s.now }).emit
        (.keyx port nonce (keyxTag nonce port)))

/-- KEYX (R366): a tag that fails is a key failure; one that holds keys the link, restarts the PSN series (R378) and brings a
HELLO (R372). -/
def execRxKeyx (port : Nat) (nonce : BitVec 256) (peerPort : Nat) (tag : BitVec 128) (s : State) : Answer :=
  if 4 ≤ port then .next s
  else if !(s.alive && s.fld (Reg.net port 0) 0 3 == 2) then .next s
  else if tag ≠ keyxTag nonce peerPort ∨ 4 ≤ peerPort then .next (s.setFld (Reg.net port 0) 0 3 5)
  else
    let x := s.port port
    let lo := nonceLo x.nonce nonce
    let hi := nonceHi x.nonce nonce
    let s1 := (s.setFld (Reg.net port 0) 0 3 (if x.fast then 4 else 3)).updPort port fun x => { x with
      peerNonce := nonce, sak := stobelSak lo hi 0, ssci := if x.nonce = lo then 1 else 2, downAt := none,
      lastRx := s.now, widen := 0, halvedAt := none }
    .next (((s1.restartPsn port).setCwnd port 512).sendHello port)

/-- HELLO (R372, R374): the peer's epoch, ownership, credits and tag. A peer that is another gives up every message. -/
def execRxHello (port : Nat) (owned : Bool) (epoch : BitVec 8) (peerPort : Nat) (credits : Nat) (tag : BitVec 128) (s : State) :
    Answer :=
  if 4 ≤ port ∨ 4 ≤ peerPort then .next s
  else if !(s.alive && s.linkUp port) then .next s
  else if s.stopped then .next (s.stopFrame port (.rxHello port owned epoch peerPort credits tag))
  else
    let old := (List.range 4).foldl (fun v i => v + (s.reg (Reg.net port (0x80 + 4 * i))).toNat * 2 ^ (32 * i)) 0
    let other := s.peerEpoch port != epoch.toNat || old != tag.toNat || (s.fld (Reg.net port 0) 8 1 == 1 && !owned)
    let s1 := if other then s.losePeer port else s
    let s2 := ((s1.setFld (Reg.net port 0) 8 1 (b2n owned)).setFld (Reg.net port 0) 16 8 epoch.toNat)
    let s3 := (List.range 4).foldl (fun s i =>
      s.setReg (Reg.net port (0x80 + 4 * i)) (BitVec.ofNat 32 (tag.toNat / 2 ^ (32 * i)))) s2
    .next ((s3.updPort port fun x => { x with
      credits := if x.gotHello then x.credits else min 510 credits, gotHello := true, lastRx := s.now }).syncReady port)

/-- KEEPALIVE (R364). -/
def execRxKeepalive (port : Nat) (s : State) : Answer :=
  if 4 ≤ port then .next s
  else if !(s.alive && s.linkUp port) then .next s
  else if s.stopped then .next (s.bumpNet port 0x64 1)
  else .next (s.updPort port fun x => { x with lastRx := s.now })

/-- OTHER_FRAME_DROP (R363, R365, R368, R369): a frame that is not protected, or one that is and is not supported. -/
def execOtherFrameDrop (port : Nat) (unprotected : Bool) (s : State) : Answer :=
  if 4 ≤ port then .next s
  else when s.alive s (s.bumpNet port (if unprotected && !s.stopped then 0x54 else 0x64) 1)

/-- LINK_DOWN (R364, R374, R420): the PHY has lost its link, or the reference it runs on. -/
def execLinkDown (port : Nat) (refLost : Bool) (t : Nat) (s : State) : Answer :=
  if 4 ≤ port then .next s
  else
    let s1 := s.atTime t
    let s2 := if refLost then
        ({ s1 with clk := { s1.clk with ethLost := setBits s1.clk.ethLost port 1 1 } } : State).setFld Reg.clkStatus (13 + port) 1 0
      else s1
    when s.alive s ((s2.dropLink port (if refLost then 0 else 1)).updPort port fun x => { x with phyUp := false })

/-- ETH_REFERENCE_RETURN (R488): ETH_LOCK sets and the port negotiates again. -/
def execEthReferenceReturn (port : Nat) (s : State) : Answer :=
  if 4 ≤ port then .next s
  else when (s.alive && !s.ethLock port) s
    ((({ s with clk := { s.clk with ethLost := setBits s.clk.ethLost port 1 0 } } : State).setFld Reg.clkStatus (13 + port) 1
      1).setFld (Reg.net port 0) 0 3 1)

/-- PEER_SILENCE_TIMEOUT (R364): 1 ms without a frame. -/
def execPeerSilenceTimeout (port t : Nat) (s : State) : Answer :=
  if 4 ≤ port then .next s
  else
    let s1 := s.atTime t
    when (s.active && s.linkUp port && (s.port port).lastRx + 1000000 ≤ s1.now) s (s1.dropLink port 0)

/-- LINK_GIVE_UP (R374): 10 ms down. -/
def execLinkGiveUp (port t : Nat) (s : State) : Answer :=
  if 4 ≤ port then .next s
  else
    let s1 := s.atTime t
    match (s.port port).downAt with
    | some d => when (s.active && !s.linkUp port && d + 10000000 ≤ s1.now) s
        ((s1.failPort port 0x0702).updPort port fun x => { x with downAt := none })
    | none => .next s

/-- REKEY (R367): a new keying on the same nonces. -/
def execRekey (port : Nat) (s : State) : Answer :=
  if 4 ≤ port then .next s
  else
    when (s.active && s.linkUp port) s (s.updPort port fun x => { x with
      keyings := x.keyings + 1, assoc := (x.assoc + 1) % 4, pn := 0
      sak := stobelSak (nonceLo x.nonce x.peerNonce) (nonceHi x.nonce x.peerNonce) (x.keyings + 1) })

/-- RETRAIN (R389): a write of NETP_n_CONFIG with RETRAIN set drops the link and negotiates again. -/
def execRetrain (fn port : Nat) (val : BitVec 32) (s : State) : Answer :=
  if 9 ≤ fn ∨ 4 ≤ port then .next s
  else if !bitB val.toNat 10 then .next s
  else
    let s1 := s.setReg (Reg.net port 4) (val &&& 0xFFFF03FF)
    regWriteRow s fn (Reg.net port 4) (if s.ethLock port then s1.dropLink port 1 else s1)

/-! ## Timers -/

/-- RETRANSMIT_TIMEOUT (R378). -/
def execRetransmitTimeout (port : Nat) (psn : BitVec 32) (t : Nat) (s : State) : Answer :=
  if 4 ≤ port then .next s
  else
    let s1 := s.atTime t
    match (s.port port).unacked.find? (fun y => y.frame.hdr.psn == psn) with
    | none => .next s
    | some y => when (s.active && s.linkUp port && (s.portOwner port).isSome && y.sentAt + y.rto ≤ s1.now) s
        (if s.fld (Reg.net port 0x40) 8 4 ≤ y.resends then s1.exhaust port else s1.resend port y (2 * y.rto))

/-- RNR_RETRY (R380): every message whose wait is over is sent again from its first segment. -/
def execRnrRetry (port t : Nat) (s : State) : Answer :=
  if 4 ≤ port then .next s
  else
    let s1 := s.atTime t
    when s.active s (s1.updPort port fun x => { x with
      msgs := x.msgs.map (fun m => if m.rnrUntil.any (· ≤ s1.now) then { m with rnrUntil := none } else m) })

/-- RNR_WAIT_TIMEOUT (R380): the wait fails at its expiry, without a signal (R289, R293), and a CANCEL follows. -/
def execRnrWaitTimeout (cmd t : Nat) (s : State) : Answer :=
  let s1 := s.atTime t
  match s.cmd? cmd with
  | none => .next s
  | some c =>
    let since := (List.range 4).findSome? (fun n => ((s.port n).msgs.find? (fun m => m.cmd == some cmd)).bind (·.rnrSince))
    match since with
    | none => .next s
    | some r =>
      let expiry := r + 1000 * (c.timeoutM1 + 1)
      when (s.active && decide (expiry ≤ s1.now) && !c.infinite) s ((s1.endMsgs [cmd]).retire c 0x0401 0 false (some expiry))

/-- ACK_TIMER (R378): 1 µs without a frame that carries ACK_PSN. -/
def execAckTimer (port t : Nat) (s : State) : Answer :=
  if 4 ≤ port then .next s
  else
    let s1 := s.atTime t
    when (s.active && s.linkUp port && (s.port port).ackAt.any (fun a => a + 1000 ≤ s1.now)) s
      (s1.sendCtl port { type := 0x10 })

/-- KEEPALIVE_TIMER (R364, R432): 100 µs without another frame; the link-maintenance unit sends it during a stop too. -/
def execKeepaliveTimer (port t : Nat) (s : State) : Answer :=
  if 4 ≤ port then .next s
  else
    let s1 := s.atTime t
    when (s.alive && s.linkUp port && (s.port port).lastTx + 100000 ≤ s1.now) s (s1.sendCtl port { type := 0x22 })

/-- HELLO_TIMER (R372, R388): each 1 ms, when RATE takes the payload acknowledged since the last. -/
def execHelloTimer (port t : Nat) (s : State) : Answer :=
  if 4 ≤ port then .next s
  else
    let s1 := s.atTime t
    let s2 := (s1.setFld (Reg.net port 0x44) 0 16 (min 65535 ((s.port port).acked / 1000))).updPort port
      fun x => { x with acked := 0 }
    when (s.active && s.linkUp port && (s.port port).lastHello + 1000000 ≤ s1.now) s (s2.sendHello port)

end Sys2Proof.Machine
end

