-- ==== Sys2Proof/Machine/QueueCmds.lean ====
section
/-!
DEFINITION. Making and unmaking queues (R264 to R267, R272, R511), the admin start (R266), virtual functions (R254), MSI-X
masks (R276), required IDE streams (R278, R279) and the BAR4 window (R258).
-/
namespace Sys2Proof.Machine

/-! ## QUEUE_CREATE, QUEUE_RESUME, QUEUE_DESTROY -/

/-- Whether a queue ID of a kind exists and lies in the range the issuing queue may create (R265, R511 row 1). -/
def State.inCreatorRange (s : State) (c : Cmd) (q : Nat) (compl : Bool) : Bool :=
  if compl then q < 65536 && (c.cls == 0 || s.cqOwner q == c.fn) else q < 2 ^ 20 && (c.cls == 0 || s.sqOwner q == c.fn)

/-- Whether a submission-queue block keeps the limits of R264 for a queue owned by `fn`. -/
def sqBlockOk (b : List Byte) (fn : Nat) : Bool :=
  let b9 := num b 9 1
  let cls := b9 % 4
  num b 0 8 % 4096 == 0 && num b 8 1 < 32 && 4 ≤ num b 8 1 && num b 8 1 ≤ 16 && b9 < 16 &&
    (if fn == 0 then cls == 0 else cls == 1 || cls == 2) && (b9 < 8 || cls == 0) &&
    num b 10 1 < 8 && (fn == 0 || num b 10 1 + 1 == fn) && num b 14 2 == 0 && num b 20 44 == 0

/-- Whether a completion-queue block keeps the limits of R272. -/
def cqBlockOk (b : List Byte) : Bool :=
  num b 0 8 % 4096 == 0 && 4 ≤ num b 8 1 && num b 8 1 ≤ 16 && num b 9 1 == 0 && bits (num b 10 2) 11 4 == 0 &&
    num b 13 1 == 0 && num b 14 2 < 1024 && num b 16 48 == 0

/-- A new submission-queue context from its block (R264). -/
def State.newSq (s : State) (b : List Byte) (fn : Nat) : SqCtx :=
  { ring := num b 0 8, size := num b 8 1, cls := num b 9 1 % 4, counters := bitB (num b 9 1) 2,
    infinite := bitB (num b 9 1) 3, part := num b 10 1, asid := num b 11 1, cq := num b 12 2,
    epoch := s.epoch (num b 10 1), enabled := true, timeoutM1 := num b 16 4, fn }

/-- A new completion-queue context from its block (R272). -/
def newCq (b : List Byte) (fn : Nat) : CqCtx :=
  { ring := num b 0 8, size := num b 8 1, vector := num b 10 2 % 2048, noIrq := bitB (num b 10 2) 15,
    modCount := num b 12 1, modTime := num b 14 2 % 1024, phase := true, armed := true, enabled := true, fn }

/-- The submission queue `q` put in place, its context in HBM, with an empty tail and no pending bit (R264). -/
def State.installSq (s : State) (q : Nat) (x : SqCtx) : State :=
  let s := s.updSq q fun _ => x
  ({ s with fe := { s.fe with
      tails := s.fe.tails.set (fun _ => 0) q 0
      pend := s.fe.pend.set (fun _ => false) q false } } : State).putCtx q

/-- QUEUE_CREATE without RESUME, rows 1 and 5 to 8 of R511. -/
def queueCreate (s : State) (c : Cmd) : Res :=
  let q := c.f 44 0 32
  let compl := c.f 48 0 1 == 1
  let b := c.block.getD []
  if c.f 48 1 1 = 1 then .more s
  else if !s.inCreatorRange c q compl then .done s 0x0912 0 none
  else if compl then
    if (s.cq q).enabled || !cqBlockOk b then .done s 0x0122 0 none
    else .done (s.updCq q fun _ => newCq b (s.cqOwner q)) 0 0 none
  else
    let fn := s.sqOwner q
    let x := s.newSq b fn
    if (s.sq q).enabled || !sqBlockOk b fn then .done s 0x0122 0 none
    else if s.cqOwner x.cq ≠ fn then .done s 0x0912 0 none
    else if !(s.cq x.cq).enabled then .done s 0x0122 0 none
    else .done (s.installSq q x) 0 0 none

/-- QUEUE_CREATE (R264, R272, R511). -/
def execQueueCreate (cmd : Nat) (s : State) : Answer := .next (runCmd s cmd [0x80] queueCreate)

/-- QUEUE_CREATE with RESUME, rows 1 to 4 of R511: a halted queue fetches again from HEAD (R267). -/
def queueResume (s : State) (c : Cmd) : Res :=
  let q := c.f 44 0 32
  let compl := c.f 48 0 1 == 1
  if c.f 48 1 1 = 0 then .more s
  else if !s.inCreatorRange c q compl then .done s 0x0912 0 none
  else if compl || !(s.sq q).enabled then .done s 0x0122 0 none
  else if !(s.sq q).halted || (s.sq q).lost then .done s 0 0 none
  else .done (s.updSq q fun x => { x with halted := false, haltStatus := 0 }) 0 0 none

/-- QUEUE_RESUME (R267). -/
def execQueueResume (cmd : Nat) (s : State) : Answer := .next (runCmd s cmd [0x80] queueResume)

/-- QUEUE_DESTROY, rows 1, 9 and 10 of R511: a completion queue goes at once; a submission queue stops fetching and the
command waits for its commands (R267). -/
def queueDestroy (s : State) (c : Cmd) : Res :=
  let q := c.f 44 0 32
  let compl := c.f 48 0 1 == 1
  if !s.inCreatorRange c q compl then .done s 0x0912 0 none
  else if compl then
    if !(s.cq q).enabled then .done s 0 0 none
    else if s.fe.sqs.any (fun x => x.2.enabled && x.2.cq == q) then .done s 0x0122 0 none
    else .done (s.updCq q fun _ => {}) 0 0 none
  else if !(s.sq q).enabled then .done s 0 0 none
  else .more ((s.updSq q fun x => { x with stopFetch := true }).updCmd c.id fun c => { c with phase := .running })

/-- QUEUE_DESTROY (R267). -/
def execQueueDestroy (cmd : Nat) (s : State) : Answer := .next (runCmd s cmd [0x81] queueDestroy)

/-- Whether a waiting QUEUE_DESTROY may end: IN_FLIGHT is 0, itself not counted (R267). -/
def State.destroyable (s : State) (c : Cmd) : Bool :=
  let q := c.f 44 0 32
  c.phase == .running && (s.sq q).inFlight == (if c.queue = q then 1 else 0) &&
    !s.fe.ringReads.any (fun r => r.queue == q)

/-- QUEUE_DESTROY_DONE (R267). -/
def execQueueDestroyDone (cmd : Nat) (s : State) : Answer :=
  .next (runCmd s cmd [0x81] fun s c =>
    if s.destroyable c then .done (s.removeSq (c.f 44 0 32)) 0 0 none else .more s)

/-! ## The admin start -/

/-- The status of an admin start (R254, R264, R266). -/
def State.adminStatus (s : State) (fn : Nat) (v : Nat) : Nat :=
  let ids := s.adminIds fn
  if fn ≠ 0 ∧ !s.configured (fn - 1) then 0x0913
  else if bits v 0 5 < 4 ∨ 16 < bits v 0 5 ∨ bits v 8 5 < 4 ∨ 16 < bits v 8 5 then 0x0122
  else if (s.sq ids.1).enabled || (s.cq ids.2).enabled then 0x0122
  else 0

/-- The admin queues created (R266): a kernel queue with ASID 0 and the default timeout, and an armed completion queue. -/
def State.adminStart (s : State) (fn v : Nat) : State :=
  let ids := s.adminIds fn
  let addr := fun lo hi => (s.reg (regKey fn lo)).toNat / 4096 * 4096 + 2 ^ 32 * (s.reg (regKey fn hi)).toNat
  let part := if fn = 0 then bits v 27 3 else fn - 1
  let s := s.updCq ids.2 fun _ =>
    { ring := addr Reg.adminCqLo Reg.adminCqHi, size := bits v 8 5, vector := bits v 16 11, phase := true, armed := true,
      enabled := true, fn }
  let s := s.installSq ids.1
    { ring := addr Reg.adminSqLo Reg.adminSqHi, size := bits v 0 5, cls := if fn = 0 then 0 else 1, part, cq := ids.2,
      epoch := s.epoch part, enabled := true, timeoutM1 := 0x001E847F, fn }
  s.setFld (regKey fn Reg.adminCtl) 31 1 1

/-- The RW bits of FE_ADMIN_CTL stored (R280). -/
def State.storeAdminCtl (s : State) (fn : Nat) (v : Word) : State :=
  s.setReg (regKey fn Reg.adminCtl) (regWrite (s.reg (regKey fn Reg.adminCtl)) 0x7FFF1F1F 0 v)

/-- ENABLE written as 1 (R266): before Eclosion, and where it is already set, only the fields are stored. -/
def State.adminEnable (s : State) (fn : Nat) (val : Word) : State :=
  let s1 := s.storeAdminCtl fn val
  if !s.eclosed || s.fld (regKey fn Reg.adminCtl) 30 1 = 1 then s1
  else
    let st := s1.adminStatus fn val.toNat
    let s2 := s1.setFld (regKey fn Reg.adminStatus) 0 16 st
    if st = 0 then s2.adminStart fn val.toNat else s2

/-- ADMIN_ENABLE (R266): a write of FE_ADMIN_CTL that sets ENABLE. -/
def execAdminEnable (fn : Nat) (val : BitVec 32) (s : State) : Answer :=
  regWriteRow s fn Reg.adminCtl (if bitB val.toNat 30 then s.adminEnable fn val else s)

/-- ENABLE written as 0 (R266): both queues go once nothing is in flight; at once where the first is gone already. -/
def State.adminDisable (s : State) (fn : Nat) (val : Word) : State :=
  let q := (s.adminIds fn).1
  let s1 := s.storeAdminCtl fn val
  if s.fld (regKey fn Reg.adminCtl) 31 1 = 0 then s1
  else if !(s1.sq q).enabled then s1.reapAdmin fn
  else (s1.updSq q fun x => { x with stopFetch := true, adminGone := true }).reapAdmin fn

/-- ADMIN_DISABLE (R266): a write of FE_ADMIN_CTL that clears ENABLE. -/
def execAdminDisable (fn : Nat) (val : BitVec 32) (s : State) : Answer :=
  regWriteRow s fn Reg.adminCtl (if bitB val.toNat 30 then s else s.adminDisable fn val)

/-! ## Functions, vectors, streams -/

/-- VF_ENABLE (R254): NumVFs written; virtual function n exists when it exceeds n. -/
def execVfEnable (numVfs : Nat) (s : State) : Answer :=
  if 8 < numVfs then .next s
  else when s.alive s { s with fe := { s.fe with numVfs } }

/-- A pending vector sent if neither it nor its function is masked (R276). -/
def State.sendPending (s : State) (fn v : Nat) : State :=
  if s.fld (regKey fn (pbaBase + v / 32 * 4)) (v % 32) 1 = 1 ∧ s.fld (regKey fn (msixBase + 16 * v + 12)) 0 1 = 0 ∧
      !s.fe.fnMask.get (fun _ => false) fn then
    (s.setFld (regKey fn (pbaBase + v / 32 * 4)) (v % 32) 1 0).sendFor (s.reqFn fn) (.msix fn v)
  else s

/-- MSIX_VECTOR_UNMASK (R276): a vector, or the function, unmasked, or masked where `mask` says so; what was pending is sent. A
vector's mask lies in BAR0, the function's in its configuration space. -/
def execMsixVectorUnmask (fn : Nat) (vector : Option Nat) (mask : Bool) (s : State) : Answer :=
  if 9 ≤ fn then .next s
  else match vector with
    | some v =>
      if 2048 ≤ v then .next s
      else regWriteRow s fn (msixBase + 16 * v + 12)
        ((s.setFld (regKey fn (msixBase + 16 * v + 12)) 0 1 (b2n mask)).sendPending fn v)
    | none =>
      let s1 := { s with fe := { s.fe with fnMask := s.fe.fnMask.set (fun _ => false) fn mask } }
      when (s.active && s.fnExists fn) s ((List.range 2048).foldl (fun s v => s.sendPending fn v) s1)

/-- Held entries and interrupts of functions that may send again, in order (R279). -/
def State.flushIde (s : State) : State :=
  let go := s.fe.heldIde.filter (fun x => !s.ideBlocked x.1)
  let s := { s with fe := { s.fe with heldIde := s.fe.heldIde.filter (fun x => s.ideBlocked x.1) } }
  go.foldl (fun s x => s.emit x.2) s

/-- IDE_STREAM_LIVE (R278, R279): the stream of a function whose key sets were programmed goes live. -/
def execIdeStreamLive (fn : Nat) (s : State) : Answer :=
  if 9 ≤ fn then .next s
  else when (s.active && s.fnExists fn && s.fe.ideKeys.get (fun _ => 0) fn != 0) s
    ((s.setFld (regKey fn Reg.feLink) 9 1 1).flushIde)

/-- IDE_REQUIRED_WRITE (R279, R280): only the physical function's view decodes it. -/
def execIdeRequiredWrite (fn : Nat) (val : BitVec 32) (s : State) : Answer :=
  regWriteRow s fn Reg.ideRequired ((s.setFld Reg.ideRequired 0 9 val.toNat).flushIde)

/-! ## The BAR4 window -/

/-- Whether BAR4 exists: the HOST_WINDOW strap (R256). -/
def State.hasBar4 (s : State) : Bool := bitB s.clk.straps 0

/-- BAR4_WINDOW_WRITE (R258): ignored whole where it would open a window onto a partition without HOST_WINDOW. Only the
physical function's view decodes it. -/
def execBar4WindowWrite (fn : Nat) (val : BitVec 32) (s : State) : Answer :=
  let v := val.toNat
  let bad := bitB v 3 && s.fld (Reg.part (bits v 0 3)) 13 1 == 0
  regWriteRow s fn Reg.bar4 (if bad then s else s.setReg Reg.bar4 (val &&& 0x1FF000F))

/-- The PPA of a BAR4 offset, if the window is open (R258). -/
def State.bar4Ppa (s : State) (off : Nat) : Option Nat :=
  if s.hasBar4 && s.fld Reg.bar4 3 1 == 1 then some (s.fld Reg.bar4 16 9 * 2 ^ 30 + off) else none

/-- One piece of a BAR4 write: dropped beyond the partition or into a sealed range (R258, R414); a part of a unit with a bad
word is not applied and poisons the unit (R211). -/
def State.bar4Put (s : State) (p ppa : Nat) (bs : List Byte) : State :=
  if s.sealedHit p ppa bs.length then s
  else match s.dpaOf p ppa with
    | none => s
    | some d =>
      match s.writeHbm { part := p, asid := 0, epoch := s.epoch p } 0 d bs with
      | (s', some e) => s'.noteErr e 0xFFFFF 0
      | (s', none) => s'

/-- A BAR4 write (R258). -/
def State.bar4Write (s : State) (off : Nat) (data : List Byte) : State :=
  match s.bar4Ppa off with
  | none => s
  | some ppa =>
    (piecesOf ppa data.length).foldl
      (fun s pc => s.bar4Put (s.fld Reg.bar4 0 3) pc.1 ((data.drop (pc.1 - ppa)).take pc.2)) s

/-- BAR4_WRITE (R258, R249, R433). -/
def execBar4Write (off : Nat) (data : List (BitVec 8)) (s : State) : Answer :=
  if 2 ^ 36 < off + data.length then .next s
  else if !s.alive then .next s
  else if s.stopped then .next (s.holdInbound (.bar4Write off data))
  else .next (s.bar4Write off data)

/-- One piece of a BAR4 read: 0 beyond the partition; none for a bad word or a sealed range. -/
def State.bar4Get (s : State) (p : Nat) (pc : Nat × Nat) : State × Option (List Byte) :=
  if s.sealedHit p pc.1 pc.2 then (s, none)
  else match s.dpaOf p pc.1 with
    | none => (s, some (List.replicate pc.2 0))
    | some d =>
      match s.readHbm { part := p, asid := 0 } 0 d pc.2 with
      | .ok bs => (s, some bs)
      | .error e => (s.noteErr { e with part := p } 0xFFFFF 0, none)

/-- The pieces of a BAR4 read in order; none if any piece fails. -/
def State.bar4Gets (s : State) (p : Nat) : List (Nat × Nat) → State × Option (List Byte)
  | [] => (s, some [])
  | pc :: ps =>
    match s.bar4Get p pc with
    | (s1, none) => (s1, none)
    | (s1, some b) =>
      match s1.bar4Gets p ps with
      | (s2, none) => (s2, none)
      | (s2, some bs) => (s2, some (b ++ bs))

/-- BAR4_READ (R258): a closed window reads 0; a read that meets an uncorrectable word answers a poisoned completion. No completion
leaves during a stop (R433). -/
def execBar4Read (off len : Nat) (s : State) : Answer :=
  if 2 ^ 36 < off + len then .next s
  else if !s.alive then .next s
  else if s.stopped then .next (s.holdInbound (.bar4Read off len))
  else match s.bar4Ppa off with
    | none => .next (s.emit (.bar4Data (some (List.replicate len 0))))
    | some ppa =>
      let r := s.bar4Gets (s.fld Reg.bar4 0 3) (piecesOf ppa len)
      .next (r.1.emit (.bar4Data r.2))

end Sys2Proof.Machine
end

