-- ==== Sys2Proof/Machine/RegRead.lean ====
section
/-!
DEFINITION. A read of BAR0 or BAR2 (R9, R13, R262): what each register shows, what reading it does (R353, R422, R444, R459), and the
bytes of an access of any size at any offset.
-/
namespace Sys2Proof.Machine

/-! ## What a register shows -/

/-- What the register at an offset of a partition's KV block shows of the pool that POOL names: 0 where the index holds none (R202). -/
def State.kvReg (s : State) (p i : Nat) : Nat :=
  let pl := s.pool p (s.fld (Reg.kvPool p) 0 4)
  if pl.pages = 0 then 0
  else match i with
    | 0 => pl.free
    | 1 => pl.evictable.length
    | 2 => pl.deferrals
    | 3 => pl.evictions
    | _ => pl.stamp

/-- The four decode slots of a core with their BUSY bits (R138). -/
def State.slotsReg (s : State) (core : Nat) : Word :=
  (List.range 4).foldl (fun w i => w ||| BitVec.ofNat 32 (b2n (s.slotBusy core i) * 2 ^ (8 * i + 6))) (s.reg (Reg.slots core))

/-- A half of an event counter (R444): the half that a read of LO captured, from then until the counter is written; else what it
holds. `i` is 2k for the LO of counter k of the core, and 2k + 1 for its HI. A chained LO shows what the read of the LO below it
captured. -/
def State.counterReg (s : State) (core i : Nat) : Word :=
  let k := i / 2
  let now := s.reg (if i % 2 = 0 then Reg.ctrLo core k else Reg.ctrHi core k)
  match (s.core core).caps.get (fun _ => 0) i with
  | 0 => now
  | v + 1 => if i % 2 = 1 ∨ s.chained core k = true then BitVec.ofNat 32 v else now

/-- The counter register at an offset: its core and `i` of `counterReg`. -/
def counterAt (off : Nat) : Option (Nat × Nat) :=
  match blockOf off 0x1600000 0x10 1536 with
  | some j =>
    if 16 ≤ j % 64 then none
    else if off % 16 = 4 then some (j / 64, j % 64 * 2)
    else if off % 16 = 8 then some (j / 64, j % 64 * 2 + 1)
    else none
  | none => none

/-- The value of the register at an aligned offset in a function's view; 0 where the view holds none (R9, R13). -/
def State.regShown (s : State) (fn off : Nat) : Word :=
  if !s.decodes fn off then 0
  else if off = Reg.timeLo then BitVec.ofNat 32 (if s.stopped then s.clk.stopT else s.now)
  else if Reg.windowData ≤ off ∧ off < Reg.windowData + 64 then
    (if fn = 0 then BitVec.ofNat 32 (num s.windowUnit (off - Reg.windowData) 4) else 0)
  else if msixBase ≤ off ∧ off < pbaBase + 0x100 then s.reg (regKey fn off)
  else match counterAt off, blockOf off 0x401004 0x80000 8, blockOf off 0x800300 0x10000 24, blockOf off 0x1608008 0x40 8 with
    | some (core, i), _, _, _ => s.counterReg core i
    | none, some p, _, _ =>
      if (off - 0x401004) % 0x80000 < 20 then BitVec.ofNat 32 (s.kvReg p ((off - 0x401004) % 0x80000 / 4))
      else if (regRow? off).isSome then s.reg (regKey fn off) else 0
    | none, none, some c, _ =>
      if (off - 0x800300) % 0x10000 = 0 then s.slotsReg c else if (regRow? off).isSome then s.reg (regKey fn off) else 0
    | none, none, none, some p =>
      if (off - 0x1608008) % 0x40 = 0 then BitVec.ofNat 32 (s.part p).trace.written
      else if (regRow? off).isSome then s.reg (regKey fn off) else 0
    | none, none, none, none => if (regRow? off).isSome then s.reg (regKey fn off) else 0

/-! ## What reading does -/

/-- What a read of a counter's LO captures (R444): its HI, and the whole of a chained counter above it. -/
def State.capture (s : State) (core k : Nat) : State :=
  let put := fun (t : Tbl Nat) (i : Nat) (w : Word) => t.set (fun _ => 0) i (w.toNat + 1)
  let hi := fun (t : Tbl Nat) => put t (2 * k + 1) (s.reg (Reg.ctrHi core k))
  let above := fun (t : Tbl Nat) =>
    put (put t (2 * k + 2) (s.reg (Reg.ctrLo core (k + 1)))) (2 * k + 3) (s.reg (Reg.ctrHi core (k + 1)))
  let pair := k % 2 == 0 && s.chained core (k + 1)
  s.updCore core fun x => { x with caps := if pair then above (hi x.caps) else hi x.caps }

/-- The next 64-byte unit in the window (R353). -/
def State.nextUnit (s : State) : State := (s.setFld Reg.rasWindow 4 20 (s.fld Reg.rasWindow 4 20 + 1)).draw

/-- The state after a read of the register at an aligned offset. During a stop a read changes nothing but the window (R433). -/
def State.afterRead (s : State) (fn off : Nat) : State :=
  if !s.decodes fn off then s
  else if off = Reg.windowData + 60 then (if fn = 0 then s.nextUnit else s)
  else if s.stopped then s
  else if off = Reg.timeLo then s.setReg Reg.timeHi (BitVec.ofNat 32 (s.now / 2 ^ 32))
  else match counterAt off, blockOf off 0x1608008 0x40 8 with
    | some (core, i), _ => if i % 2 = 0 ∧ s.chained core (i / 2) = false then s.capture core (i / 2) else s
    | none, some p =>
      if (off - 0x1608008) % 0x40 = 0 then s.setReg (Reg.traceHi p) (BitVec.ofNat 32 ((s.part p).trace.written / 2 ^ 32)) else s
    | none, none => s

/-! ## Accesses -/

/-- The aligned offsets of the registers that an access touches, ascending (R9). -/
def touched (off size : Nat) : List Nat :=
  (List.range ((off + size - 1) / 4 - off / 4 + 1)).map (fun i => 4 * (off / 4 + i))

/-- Registers read one after the other: the bytes they show. -/
def State.readRegs (s : State) (fn : Nat) : List Nat → State × List Byte
  | [] => (s, [])
  | o :: os =>
    let r := (s.afterRead fn o).readRegs fn os
    (r.1, leBytes 4 (s.regShown fn o).toNat ++ r.2)

/-- A read of `size` bytes at any offset of BAR0 (R9): a read of each register it touches, and the bytes addressed. -/
def State.barRead (s : State) (fn off size : Nat) : State × List Byte :=
  let r := s.readRegs fn (touched off size)
  (r.1, (r.2.drop (off % 4)).take size)

/-- A read of BAR2 (R262). -/
def bar2Read (size : Nat) : List Byte := List.replicate size 0

/-- A read of BAR0 by a row that stands for the reads that touch a register of its own. -/
def readRow (fn off size : Nat) (own : Nat → Bool) (s : State) : Answer :=
  if 9 ≤ fn ∨ size = 0 ∨ 8 < size ∨ 2 ^ 26 < off + size then .next s
  else if !s.reaches fn || !(touched off size).any own then .next s
  else .next ((s.barRead fn off size).1.emit (.readData fn off (s.barRead fn off size).2))

/-- TIME_LO_READ (R422): the upper half of the same cycle is captured. -/
def execTimeLoRead (fn off size : Nat) (s : State) : Answer := readRow fn off size (· == Reg.timeLo) s

/-- COUNTER_LO_READ (R444). -/
def execCounterLoRead (fn off size : Nat) (s : State) : Answer :=
  readRow fn off size (fun o => (counterAt o).any (fun c => c.2 % 2 == 0)) s

/-- TRACE_INDEX_LO_READ (R459): the upper half of WRITE_INDEX is captured. -/
def execTraceIndexLoRead (fn off size : Nat) (s : State) : Answer :=
  readRow fn off size (fun o => (List.range 8).any (fun p => o == Reg.traceLo p)) s

/-- RAS_WINDOW_DATA_READ (R353). -/
def execRasWindowDataRead (fn off size : Nat) (s : State) : Answer :=
  readRow fn off size (fun o => Reg.windowData ≤ o && o < Reg.windowData + 64) s

end Sys2Proof.Machine
end

