-- ==== Sys2Proof/Machine/Reset.lean ====
section
/-!
DEFINITION. Power, pins and resets: the boot up to STATE 1 (R391), fundamental and warm resets (R346, R423 to R425), power-up, loss and
brown-out (R484 to R488), the thermal trip (R470), and function-level resets (R255).
-/
namespace Sys2Proof.Machine

/-! ## What resets keep -/

/-- Registers of a state copied into another, whole. -/
def State.keepRegs (s old : State) (ks : List Nat) : State := ks.foldl (fun s k => s.setReg k (old.reg k)) s

/-- Everything back at reset but the fuses, the pins and supplies, GCTL_PWR_STATUS (R494), and what lies outside the device: the commands
that wait, what it has sent, the host's memory (R346, R423). -/
def State.wipe (s : State) : State :=
  let clk : Clk := { perst := s.clk.perst, warm := s.clk.warm, powered := s.clk.powered, tripped := s.clk.tripped,
                     heldBy := s.clk.heldBy, strapBalls := s.clk.strapBalls, straps := s.clk.straps, strapsDue := s.clk.strapsDue,
                     ethLost := s.clk.ethLost }
  ({ State.reset with pending := s.pending, free := s.free, out := s.out, host := s.host, fuses := s.fuses, clk } : State).keepRegs
    s [Reg.pwr]

/-- What a warm reset clears and keeps (R346, R361, R423, R439): the always-on block, the error log, the dump and HBM stay. A boot that
waits for a fundamental reset goes on waiting (R391, R484). -/
def State.warmWipe (s : State) : State :=
  let w := s.wipe
  let w := { w with
    clk := { w.clk with time := s.clk.time, bootNonce := s.clk.bootNonce, fresh := s.clk.fresh }
    ras := { s.ras with derate := [], derateAt := [], wbLast := 0 }
    mem := { w.mem with hbm := s.mem.hbm, hbmBad := s.mem.hbmBad, hbmOne := s.mem.hbmOne } }
  let w := w.keepRegs s ([Reg.timeHi, Reg.resets] ++ (List.range 8).map Reg.logNext)
  let w := (w.setFld Reg.ras 1 1 (s.fld Reg.ras 1 1)).setFld Reg.ras 4 12 (s.fld Reg.ras 4 12)
  if s.fld Reg.secStatus 4 4 = 0xF then w.setFld Reg.secStatus 4 4 0xF else w

/-! ## Boot -/

/-- The straps sampled (R482). -/
def State.sampleStraps (s : State) : State :=
  { s with clk := { s.clk with straps := s.clk.strapBalls % 16, strapsDue := false } }

/-- The self-test of one unit at boot (R340); what its arrays end with, and the outcome of its residue tests, are free. A failed unit
leaves service and is recorded. -/
def State.bootTest (s : State) (draw core u : Nat) : State :=
  let unit := if u < 4 then CoreUnit.array u else if u = 4 then .vector else .attention
  let diag := unitDiag unit (Config.freeBit draw (8 * core + u)) ((List.range 4).map (Config.bootRun draw (8 * core + u)))
  if diag = 0 then s
  else
    let s := match u with
      | 4 => s.setFld (Reg.vecFault core) 0 1 1
      | 5 => s.setFld (Reg.attFault core) 0 1 1
      | a => (s.setFld (Reg.arrayFence core) a 1 1).setFld (Reg.arrayStatus core) a 1 0
    s.logSelfTest core unit diag

/-- The PCIe link trained (R252, R253): its speed, width and mode are free, the same in each function's FE_LINK, but that 64 GT/s is
in FLIT mode. -/
def State.trainLink (s : State) (draw : Nat) : State :=
  let speed := 1 + Config.freeNat draw 500 % 6
  let w := speed + 8 * 2 ^ (Config.freeNat draw 501 % 5) + 256 * b2n (speed == 6 || Config.freeBit draw 502)
  (List.range 9).foldl (fun s fn => s.setReg (regKey fn Reg.feLink) (BitVec.ofNat 32 w)) s

/-- A port after the boot (R362, R397, R417, R491): its MAC address from the fuses, and negotiation where its reference runs. -/
def State.bootPort (s : State) (n : Nat) : State :=
  let mac := s.fuses.mac + n
  let s := (s.setReg (Reg.net n 8) (BitVec.ofNat 32 mac)).setFld (Reg.net n 0xC) 0 16 (mac / 2 ^ 32)
  if bitB s.clk.ethLost n then s else (s.setFld Reg.clkStatus (13 + n) 1 1).setFld (Reg.net n 0) 0 3 1

/-- What boot shows of the fuses, the pins and the PLLs at the beginning of step 1 of R391. -/
def State.showPins (s : State) : State :=
  let s := ((s.setReg Reg.straps (BitVec.ofNat 32 s.clk.straps)).setFld Reg.clkStatus 4 1 1).setFld Reg.mbxLink 0 7
    (0x60 + s.clk.straps / 2 % 4)
  s.syncFuses.setFld Reg.fuseState 0 1 (b2n !s.fuses.debugClosed)

/-- The rest of step 1: MR0 extended (R398), and the device identity with it (R399). -/
def State.bootStart (s : State) : State :=
  let s := s.extend 0 1 (padTo 32 Config.romDigest)
  s.setBytes 0x17001A0 (padTo 32 (shake256 s.deviceIdPk 32))

/-- Steps 1 to 4 of R391 on a device that has just been wiped. `rates` holds two bits for each stack: the code its training reached. A
fuse field that fails its check stops the boot at step 1, as does the wait of an earlier stop; GCTL_ID, the fuse state, the straps and
the sideband address show what was read by then, and MR0 stays 0 (DESIGN CHOICE: the spec does not say; log entry 5). -/
def State.bootUp (s : State) (fuseOk : Bool) (nonce : BitVec 256) (rates : BitVec 16) : State :=
  let stuck := s.fld Reg.secStatus 4 4 = 0xF
  let s := if s.clk.fresh then { s with clk := { s.clk with bootNonce := nonce, fresh := false } } else s
  let s := s.showPins
  if !fuseOk ∨ stuck then s.setFld Reg.secStatus 4 4 0xF
  else
    let s := s.bootStart
    let s := (List.range 8).foldl (fun s st =>
      let r := bits rates.toNat (2 * st) 2
      (s.setFld (Reg.memStatus st) 0 2 r).setFld Reg.clkStatus (5 + st) 1 (b2n (r != 3))) s
    let s := (List.range 4).foldl State.bootPort s
    let d := s.free
    let s := (List.range 24).foldl (fun s k => (List.range 6).foldl (fun s u => s.bootTest d k u) s) s.draw
    (s.trainLink d).setFld Reg.secStatus 0 4 1

/-- Whether nothing holds the device in reset. -/
def State.mayBoot (s : State) : Bool :=
  s.clk.powered && !s.clk.tripped && !s.clk.perst && !s.clk.warm && s.clk.heldBy == 0

/-- The boot, once nothing holds the device in reset. The straps are sampled where PERST# has risen meanwhile (R486). -/
def State.bootIf (s : State) (fuseOk : Bool) (nonce : BitVec 256) (rates : BitVec 16) : State :=
  if s.mayBoot then (if s.clk.strapsDue then s.sampleStraps else s).bootUp fuseOk nonce rates else s

/-! ## PERST# and WARM_RST# -/

/-- PERST_ASSERTION (R423): everything is cleared. A WARM_RST# that is low counts no more (R425). -/
def execPerstAssertion (s : State) : Answer :=
  when (!s.clk.perst) s (({ s with clk := { s.clk with perst := true, warm := false, strapsDue := false } } : State).wipe)

/-- FUNDAMENTAL_RESET (R391, R423, R486): PERST# rises; the straps are sampled and the device boots if its supplies are there. -/
def execFundamentalReset (fuseOk : Bool) (nonce : BitVec 256) (rates : BitVec 16) (s : State) : Answer :=
  let s1 : State := { s with clk := { s.clk with perst := false, strapsDue := true } }
  when s.clk.perst s (s1.bootIf fuseOk nonce rates)

/-- WARM_RESET (R423 to R425): a fall of WARM_RST# holds the device in reset, and the rise boots it. -/
def execWarmReset (low fuseOk : Bool) (rates : BitVec 16) (s : State) : Answer :=
  if !s.clk.powered ∨ s.clk.tripped ∨ s.clk.perst ∨ s.clk.warm = low then .next s
  else if low then
    let s1 : State := { s with clk := { s.clk with warm := true } }
    .next ((s1.warmWipe).bump Reg.resets 0 16 1)
  else
    let s1 : State := { s with clk := { s.clk with warm := false } }
    .next (s1.bootIf fuseOk 0 rates)

/-- HOT_RESET (R424): a hot reset or a link disable performs a warm reset. -/
def execHotReset (fuseOk : Bool) (rates : BitVec 16) (s : State) : Answer :=
  when s.alive s ((s.warmWipe.bump Reg.resets 16 16 1).bootIf fuseOk 0 rates)

/-! ## Supplies -/

/-- Everything that a device without power forgets: all but its fuses (R487). -/
def State.unpowered (s : State) : State :=
  let w := s.wipe
  ({ w with regs := [], clk := { w.clk with powered := false, tripped := false, heldBy := 0, straps := 0, strapsDue := true } } : State)

/-- POWER_LOSS (R487). -/
def execPowerLoss (s : State) : Answer := when s.clk.powered s s.unpowered

/-- POWER_UP (R486): the monitor releases the device, which boots unless PERST# is still low. -/
def execPowerUp (fuseOk : Bool) (nonce : BitVec 256) (rates : BitVec 16) (s : State) : Answer :=
  let s1 : State := { s with clk := { s.clk with powered := true } }
  when (!s.clk.powered) s (s1.bootIf fuseOk nonce rates)

/-- A supply below its threshold (R488, R494): PGOOD, and BROWNOUT where the device runs. -/
def State.supplyLow (s : State) (b : Nat) : State :=
  let s := if s.clk.perst then s else s.setFld Reg.pwr (16 + b) 1 1
  s.setFld Reg.pwr b 1 0

/-- A reset held while supply `b` stays low. -/
def State.holdBy (s : State) (b : Nat) : State := { s with clk := { s.clk with heldBy := setBits s.clk.heldBy b 1 1 } }

/-- A supply removed from a device that its thermal trip has stopped: the removal of VDD_CORE releases THERMTRIP#, and the device boots
anew once every supply is back (R470, R489; DEDUCED: log entry 41). -/
def State.tripPower (s : State) (b : Nat) : State :=
  let s := if b = 9 then s.setFld Reg.pwr b 1 0 else (s.setFld Reg.pwr b 1 0).holdBy b
  if b = 0 then ({ s with clk := { s.clk with tripped := false } } : State).wipe else s

/-- BROWN_OUT (R488). Supplies 0 to 9 are those of PGOOD; 10 is VDD_AON and 11 VDD_IO. -/
def execBrownOut (supply : Nat) (s : State) : Answer :=
  if 12 ≤ supply then .next s
  else if !s.clk.powered then .next s
  else if 10 ≤ supply then .next s.unpowered
  else if s.fld Reg.pwr supply 1 = 0 then .next s
  else if s.clk.tripped then .next (s.tripPower supply)
  else
    let s1 := s.supplyLow supply
    .next (if supply = 9 then s1
      else if 5 ≤ supply ∧ supply ≤ 7 then s1.wipe.holdBy supply
      else if s.clk.perst then s1.holdBy supply
      else s1.warmWipe.holdBy supply)

/-- SUPPLY_RETURN (R488): the boot starts again once every supply is back; VDD_AON and VDD_IO return as a power-up. -/
def execSupplyReturn (supply : Nat) (fuseOk : Bool) (nonce : BitVec 256) (rates : BitVec 16) (s : State) : Answer :=
  if 12 ≤ supply then .next s
  else if 10 ≤ supply then execPowerUp fuseOk nonce rates s
  else if s.fld Reg.pwr supply 1 = 1 ∨ !s.clk.powered then .next s
  else
    let s1 := s.setFld Reg.pwr supply 1 1
    if supply = 9 then .next s1
    else
      let s2 : State := { s1 with clk := { s1.clk with heldBy := setBits s1.clk.heldBy supply 1 0 } }
      .next (s2.bootIf fuseOk nonce rates)

/-- THERMTRIP (R470): every PLL stops, and HBM contents are lost. Only a power cycle brings the device back. -/
def execThermtrip (s : State) : Answer :=
  when (s.clk.powered && !s.clk.tripped) s
    ({ s with clk := { s.clk with tripped := true }, mem := { s.mem with hbm := [], hbmBad := [], hbmOne := [] } } : State)

/-! ## Function-level reset -/

/-- A function's queues destroyed, and its commands dropped, since their completion queues are gone (R255). -/
def State.dropFunction (s : State) (fn : Nat) : State :=
  let cs := s.fe.cmds.filter (fun c => c.fn == fn)
  let ids := cs.map (·.id)
  let s := (s.endMsgs ids).destroyQueues fn
  let s := cs.foldl (fun s c =>
    let s := if c.op = 0x82 ∧ s.pstate c.part = 1 ∧ c.phase = .running then s.dropConfigure c.part else s
    let s := if (c.op = 0x8D ∨ c.op = 0x8E) ∧ s.pstate c.part = 3 then s.setFld (Reg.part c.part) 0 3 2 else s
    (s.stopLoad c).dropCmd c) s
  let s := { s with fe := { s.fe with
    ringReads := s.fe.ringReads.filter (fun r => r.fn != fn)
    tags := s.fe.tags.map (fun (t : Tag) => if ids.contains t.cmd then { t with cmd := 0 } else t) } }
  let s := s.setFld (regKey fn Reg.adminCtl) 30 2 0
  { s with boot := { s.boot with sessions := s.boot.sessions.filter (fun x => x.rsp != fn)
                                 inbox := s.boot.inbox.erase fn
                                 large := s.boot.large.erase fn } }

/-- What a function-level reset does (R255): of the physical function, to every function and partition. -/
def State.flr (s : State) (fn : Nat) : State :=
  if fn = 0 then (List.range 8).foldl (fun s p => s.needReset p) ((List.range 9).foldl (fun s f => s.dropFunction f) s)
  else
    let s := (s.dropFunction fn).clearRegs (regKey fn msixBase) 0x8100
    s.needReset (fn - 1)

/-- FUNCTION_LEVEL_RESET (R255): a stop holds it until release (R433). -/
def execFunctionLevelReset (fn : Nat) (s : State) : Answer :=
  if 9 ≤ fn then .next s
  else if !s.alive ∨ !s.fnExists fn then .next s
  else if s.stopped then .next (s.holdInbound (.functionLevelReset fn))
  else .next (s.flr fn)

end Sys2Proof.Machine
end

