-- ==== Sys2Proof/Machine/Spdm.lean ====
section
/-!
DEFINITION. The SPDM responders (R404, R405): nine DOE instances (0 the physical function, n + 1 virtual function n) and the
management sideband (9); the attestation report (R406); and the other DOE protocols (R277). A reply carries DSP0274's response
code and the fields that this spec gives; the wire framing of DSP0274 is left out (log entry 19).
-/
namespace Sys2Proof.Machine

/-- The sideband's responder number. -/
def sideband : Nat := 9

/-- A response with its code and payload. -/
def State.reply (s : State) (rsp code : Nat) (data : List Byte) : State := s.emit (.reply rsp code data)
/-- An SPDM ERROR with its error code (R405, R463). -/
def State.spdmError (s : State) (rsp err : Nat) (data : List Byte := []) : State := s.reply rsp 0x7F (leBytes 1 err ++ data)

/-- One request at a responder. A responder that does not exist, or a sideband without an endpoint ID (R461), answers nothing; while no
firmware runs the answer is Busy (R463); a stop holds the request until release. -/
def spdmRow (rsp : Nat) (i : Instr) (s t : State) : Answer :=
  if 10 ≤ rsp then .next s
  else if !s.alive ∨ (rsp < 9 ∧ !s.fnExists rsp) ∨ (rsp = 9 ∧ (s.fld Reg.mbxLink 16 8 = 0 ∨ s.fld Reg.clkStatus 4 1 = 0)) then .next s
  else if !s.eclosed ∨ !s.fwRuns then .next (s.spdmError rsp 0x03)
  else if s.stopped then .next (s.holdInbound i)
  else .next t

/-! ## Version, capabilities, certificates -/

/-- GET_VERSION (R404): SPDM 1.3. -/
def execGetVersion (rsp : Nat) (s : State) : Answer :=
  spdmRow rsp (.getVersion rsp) s (s.reply rsp 0x04 [0x13])

/-- GET_CAPABILITIES (R404): CTExponent 14. -/
def execGetCapabilities (rsp : Nat) (s : State) : Answer :=
  spdmRow rsp (.getCapabilities rsp) s (s.reply rsp 0x61 [14])

/-- NEGOTIATE_ALGORITHMS (R404): the one suite of R404, if the requester offers it. -/
def execNegotiateAlgorithms (rsp : Nat) (offered : Bool) (s : State) : Answer :=
  spdmRow rsp (.negotiateAlgorithms rsp offered) s (if offered then s.reply rsp 0x63 [] else s.spdmError rsp 0x01)

/-- The certificate chain of slot 0 (R404). -/
def State.chain (s : State) : List Byte :=
  Config.rootCert ++ (if s.fld Reg.secStatus 16 1 = 1 then s.boot.cert else []) ++
    Config.aliasCert s.spdmSeed (s.mr 0 ++ s.mr 1 ++ s.mr 2 ++ s.mr 3)

/-- GET_DIGESTS (R404). -/
def execGetDigests (rsp : Nat) (s : State) : Answer :=
  spdmRow rsp (.getDigests rsp) s (s.reply rsp 0x01 (Config.sha384 s.chain))

/-- GET_CERTIFICATE (R404): a portion of the chain of slot 0. -/
def execGetCertificate (rsp slot off len : Nat) (s : State) : Answer :=
  spdmRow rsp (.getCertificate rsp slot off len) s
    (if slot ≠ 0 ∨ s.chain.length ≤ off then s.spdmError rsp 0x01 else s.reply rsp 0x02 ((s.chain.drop off).take len))

/-- A signature by the SPDM key over a response's fields. -/
def State.signed (s : State) (bs : List Byte) : List Byte := bs ++ Config.ecdsaSign s.spdmSeed bs

/-- CHALLENGE (R404). -/
def execChallenge (rsp slot : Nat) (nonce : BitVec 256) (s : State) : Answer :=
  spdmRow rsp (.challenge rsp slot nonce) s
    (if slot ≠ 0 then s.spdmError rsp 0x01
     else s.reply rsp 0x03 (s.signed (Config.sha384 s.chain ++ leBytes 32 nonce.toNat)))

/-- A measurement block, where the responder serves it (R404). -/
def State.measBlock (s : State) (rsp b : Nat) : Option (List Byte) :=
  if 1 ≤ b ∧ b ≤ 4 then some (s.mr (b - 1))
  else if b = 5 then some (s.regBytes 0x1700180 8)
  else if 16 ≤ b ∧ b < 24 ∧ (rsp = 0 ∨ rsp = 9 ∨ rsp = b - 15) then some (s.regBytes (Reg.pmr (b - 16) 0) 8)
  else none

/-- The block numbers that a responder serves. -/
def State.measBlocks (s : State) (rsp : Nat) : List Nat := (List.range 24).filter (fun b => (s.measBlock rsp b).isSome)

/-- GET_MEASUREMENTS (R404): one block, their number (0) or all of them (255), with the nonce, signed. -/
def execGetMeasurements (rsp block : Nat) (nonce : BitVec 256) (s : State) : Answer :=
  let body := if block = 0 then some (leBytes 1 (s.measBlocks rsp).length)
    else if block = 255 then some ((s.measBlocks rsp).flatMap (fun b => leBytes 1 b ++ (s.measBlock rsp b).getD []))
    else (s.measBlock rsp block).map (fun m => leBytes 1 block ++ m)
  spdmRow rsp (.getMeasurements rsp block nonce) s (match body with
    | some b => s.reply rsp 0x60 (s.signed (b ++ leBytes 32 nonce.toNat))
    | none => s.spdmError rsp 0x01)

/-! ## Sessions -/

/-- A responder's sessions. -/
def State.sessionsOf (s : State) (rsp : Nat) : List Session := s.boot.sessions.filter (fun x => x.rsp == rsp)
/-- A responder's session of an ID, once established. -/
def State.established (s : State) (rsp sess : Nat) : Bool := s.boot.sessions.any (fun x => x.rsp == rsp && x.id == sess && x.done)
/-- The sessions replaced. -/
def State.setSessions (s : State) (l : List Session) : State := { s with boot := { s.boot with sessions := l } }
/-- A responder's session gone. -/
def State.dropSession (s : State) (rsp sess : Nat) : State :=
  s.setSessions (s.boot.sessions.filter (fun x => !(x.rsp == rsp && x.id == sess)))

/-- KEY_EXCHANGE (R404): four sessions per responder. -/
def execKeyExchange (rsp sess : Nat) (s : State) : Answer :=
  spdmRow rsp (.keyExchange rsp sess) s
    (if 4 ≤ (s.sessionsOf rsp).length then s.spdmError rsp 0x0A
     else if (s.sessionsOf rsp).any (fun x => x.id == sess) then s.spdmError rsp 0x01
     else (s.setSessions (s.boot.sessions ++ [{ rsp, id := sess }])).reply rsp 0x64 (s.signed (leBytes 4 sess)))

/-- FINISH (R404): it verifies the requester's MAC. -/
def execFinish (rsp sess : Nat) (verified : Bool) (s : State) : Answer :=
  spdmRow rsp (.finish rsp sess verified) s
    (if !s.boot.sessions.any (fun x => x.rsp == rsp && x.id == sess && !x.done) then s.spdmError rsp 0x02
     else if !verified then (s.dropSession rsp sess).spdmError rsp 0x06
     else (s.setSessions (s.boot.sessions.map (fun x =>
       if x.rsp = rsp ∧ x.id = sess then { x with done := true } else x))).reply rsp 0x65 [])

/-- A request that only an established session may carry. -/
def State.inSession (s : State) (rsp sess : Nat) (t : State) : State :=
  if s.established rsp sess then t else s.spdmError rsp 0x02

/-- KEY_UPDATE (R404). -/
def execKeyUpdate (rsp sess : Nat) (s : State) : Answer :=
  spdmRow rsp (.keyUpdate rsp sess) s (s.inSession rsp sess (s.reply rsp 0x69 []))

/-- HEARTBEAT (R404). -/
def execHeartbeat (rsp sess : Nat) (s : State) : Answer :=
  spdmRow rsp (.heartbeat rsp sess) s (s.inSession rsp sess (s.reply rsp 0x68 []))

/-- END_SESSION (R404). -/
def execEndSession (rsp sess : Nat) (s : State) : Answer :=
  spdmRow rsp (.endSession rsp sess) s (s.inSession rsp sess ((s.dropSession rsp sess).reply rsp 0x6C []))

/-! ## Chunks -/

/-- A chunk of a request added to what has come (R405); its sequence numbers rise by 1 from 0. A DOE object holds at most 64 KiB (R277). -/
def State.takeChunk (s : State) (rsp handle seq : Nat) (last : Bool) (data : List Byte) : State :=
  let x := s.boot.inbox.get (fun _ => {}) rsp
  let want := if x.handle = handle then x.seq else 0
  if (seq ≠ 0 ∧ seq ≠ want) ∨ (rsp ≠ sideband ∧ 65536 < data.length) then s.spdmError rsp 0x01
  else
    let old := if seq = 0 then [] else x.data
    let y : Chunked := if last then {} else { handle, seq := seq + 1, data := old ++ data }
    ({ s with boot := { s.boot with inbox := s.boot.inbox.set (fun _ => {}) rsp y } } : State).reply rsp 0x05
      (leBytes 1 handle ++ leBytes 2 seq)

/-- CHUNK_SEND (R404, R405). -/
def execChunkSend (rsp handle seq : Nat) (last : Bool) (data : List (BitVec 8)) (s : State) : Answer :=
  spdmRow rsp (.chunkSend rsp handle seq last data) s (s.takeChunk rsp handle seq last data)

/-- A chunk of the large response that a responder holds (R405). -/
def State.giveChunk (s : State) (rsp handle seq : Nat) : State :=
  let x := s.boot.large.get (fun _ => {}) rsp
  let n := max 1 Config.chunkBytes
  if x.data.isEmpty ∨ x.handle ≠ handle ∨ x.seq ≠ seq then s.spdmError rsp 0x01
  else
    let last := x.data.length ≤ n * (seq + 1)
    let y : Chunked := if last then {} else { x with seq := seq + 1 }
    ({ s with boot := { s.boot with large := s.boot.large.set (fun _ => {}) rsp y } } : State).reply rsp 0x06
      (leBytes 1 handle ++ leBytes 2 seq ++ leBytes 1 (b2n last) ++ (x.data.drop (n * seq)).take n)

/-- CHUNK_GET (R404, R405). -/
def execChunkGet (rsp handle seq : Nat) (s : State) : Answer :=
  spdmRow rsp (.chunkGet rsp handle seq) s (s.giveChunk rsp handle seq)

/-- A response sent whole, or kept for CHUNK_GET where it exceeds what the transport carries: 256 KiB over DOE (R277), 4,096 bytes over
the sideband (R460). The handle is free. -/
def State.answer (s : State) (rsp code : Nat) (data : List Byte) : State :=
  if data.length ≤ (if rsp = 9 then 4096 else 262144) then s.reply rsp code data
  else
    let h := Config.freeNat s.free 0 % 256
    ({ s with boot := { s.boot with large := s.boot.large.set (fun _ => {}) rsp { handle := h, data } } } : State).draw.spdmError
      rsp 0x0F (leBytes 1 h)

/-! ## The attestation report -/

/-- A partition's entry in LAYOUT (R406). -/
def State.layoutEntry (s : State) (p : Nat) : List Byte :=
  leBytes 1 (s.pstate p) ++ leBytes 1 (s.fld (Reg.part p) 4 5) ++ leBytes 1 (s.fld (Reg.part p) 9 4) ++
    leBytes 1 (s.fld (Reg.part p) 13 1 + 2 * s.fld Reg.ideRequired (p + 1) 1) ++ leBytes 1 (s.fld (Reg.partStacks p) 0 8) ++
    leBytes 1 (s.fld (Reg.partStacks p) 8 8) ++ leBytes 1 (s.epoch p) ++ leBytes 1 0 ++ leBytes 4 (s.part p).configs ++ leBytes 4 0

/-- The partition's ML-KEM key in a report: 1,568 bytes, 0 where it has none (R406, R409). -/
def State.kemBytes (s : State) (p : Nat) : List Byte :=
  let k := (s.part p).kem
  if k = 0 then leBytes 1568 0 else padTo 1568 (Config.kemPk k)

/-- The report of R406 before its signature; a SCOPE of 8 or more is the device report. -/
def State.reportBody (s : State) (scope : Nat) (nonce : BitVec 256) : List Byte :=
  let log := if scope < 8 then (s.part scope).plog else []
  let flags := s.fld Reg.fuseState 0 2 + 4 * s.fld Reg.secStatus 16 1 + 8 * s.fld Reg.ideRequired 0 1
  let pmr := (List.range 8).flatMap (fun p =>
    if 8 ≤ scope ∨ scope = p then s.regBytes (Reg.pmr p 0) 8 else leBytes 32 0)
  leBytes 2 5 ++ leBytes 1 1 ++ leBytes 1 scope ++ leBytes 4 (2624 + 64 * log.length + 49856) ++ leBytes 32 nonce.toNat ++
    s.regBytes Reg.gctlId 1 ++ leBytes 1 flags ++ leBytes 1 (s.fld Reg.fuseState 17 2) ++ leBytes 1 (s.fld Reg.fuseState 6 4) ++
    leBytes 1 (s.fld Reg.fuseState 10 7) ++ leBytes 4 (s.fld Reg.secFw 0 7) ++ leBytes 4 (s.fld Reg.secFw 16 16) ++
    leBytes 8 s.now ++ s.regBytes 0x17001A0 8 ++ s.mr 0 ++ s.mr 1 ++ s.mr 2 ++ s.mr 3 ++ s.regBytes 0x1700180 8 ++
    (List.range 8).flatMap s.layoutEntry ++ pmr ++ padTo 64 (Config.slhPk s.attestSeed) ++ padTo 8 Config.lotWaferDie ++
    leBytes 2 log.length ++ leBytes 310 0 ++ (if scope < 8 then s.kemBytes scope else leBytes 1568 0) ++ leBytes 32 0 ++
    log.flatMap (padTo 64)

/-- A signed report (R406). -/
def State.report (s : State) (scope : Nat) (nonce : BitVec 256) : List Byte :=
  let b := s.reportBody scope nonce
  b ++ padTo 49856 (Config.slhSign s.attestSeed b)

/-- VENDOR_DEFINED_REQUEST (R405): request code 0x01 of vendor 0x1EE9 asks for a report; a virtual function's instance serves only its
own scope. -/
def execVendorDefinedRequest (rsp vendor code scope : Nat) (nonce : BitVec 256) (s : State) : Answer :=
  let served := (scope < 8 ∨ scope = 0xFF) ∧ (rsp = 0 ∨ rsp = 9 ∨ rsp = scope + 1)
  spdmRow rsp (.vendorDefinedRequest rsp vendor code scope nonce) s
    (if vendor ≠ 0x1EE9 ∨ code ≠ 1 then s.spdmError rsp 0x07
     else if served then s.answer rsp 0x7E (s.report scope nonce)
     else s.spdmError rsp 0x01)

/-! ## Other DOE protocols -/

/-- DOE_ABORT (R277): what an instance holds of a request or a response is dropped. -/
def execDoeAbort (fn : Nat) (s : State) : Answer :=
  if 9 ≤ fn then .next s
  else when (s.alive && s.fnExists fn) s
    { s with boot := { s.boot with inbox := s.boot.inbox.erase fn, large := s.boot.large.erase fn } }

/-- DOE_DISCOVERY (R277): the protocol of an index with the next index: discovery, CMA/SPDM, secured CMA/SPDM. -/
def execDoeDiscovery (fn index : Nat) (s : State) : Answer :=
  if 9 ≤ fn then .next s
  else when (s.alive && s.fnExists fn) s
    (if index < 3 then s.reply fn 0 (leBytes 2 1 ++ leBytes 1 index ++ leBytes 1 (if index = 2 then 0 else index + 1))
     else s.reply fn 0 (leBytes 4 0xFFFF))

/-- IDE_KM (R277): keys for a function's stream, within an established session of the physical function's instance. -/
def execIdeKm (rsp sess stream keySet : Nat) (s : State) : Answer :=
  if 9 ≤ stream ∨ 2 ≤ keySet then .next s
  else spdmRow rsp (.ideKm rsp sess stream keySet) s
    (if rsp ≠ 0 ∨ !s.established rsp sess then s.spdmError rsp 0x02
     else ({ s with fe := { s.fe with ideKeys := s.fe.ideKeys.upd (fun _ => 0) stream (fun m => m ||| 2 ^ keySet) } } : State).reply
       rsp 0x7E (leBytes 1 stream ++ leBytes 1 keySet))

end Sys2Proof.Machine
end

