-- ==== Sys2Proof/Machine/Stop.lean ====
section
/-!
DEFINITION. The scheduled stop (R426 to R438): SNAPSHOT and GCTL_STOP_CTL, the cut, its dump, and the release.
-/
namespace Sys2Proof.Machine

/-! ## Arming -/

/-- The stacks and ports whose clock is stopped: they are left out of the cut (R428). -/
def State.absentUnits (s : State) : Nat :=
  (List.range 8).foldl (fun m st => m + b2n (s.offline st) * 2 ^ st) 0 +
    (List.range 4).foldl (fun m n => m + b2n (!s.ethLock n) * 2 ^ (8 + n)) 0

/-- A stop armed at T (R427, R428). -/
def State.armStop (s : State) (t action source : Nat) : State :=
  let s := (s.setReg64 Reg.stopLo Reg.stopHi t).setFld Reg.stopCtl 4 2 action
  let s := ((s.setFld Reg.stopStatus 0 3 1).setFld Reg.stopStatus 4 2 (2 * source)).setFld Reg.stopStatus 16 12 s.absentUnits
  { s with clk := { s.clk with stopT := t, stopAction := action } }

/-- The cause for which a stop at T, asked for at `now`, is refused; 0 if none (R426). -/
def State.stopCause (s : State) (now t action : Nat) : Nat :=
  if t < now + 2000 then 1
  else if s.fld Reg.stopStatus 0 3 ≠ 0 then 2
  else if action = 3 then 3
  else 0

/-- SNAPSHOT (R426). -/
def snapshot (s : State) (c : Cmd) : Res :=
  let t := alignUp ((if c.f 40 0 1 = 1 then c.dispAt else 0) + c.f 32 0 64) 4
  let action := c.f 40 1 2
  let d := s.stopCause c.dispAt t action
  if d ≠ 0 then .done s 0x0104 d none else .done (s.armStop t action 1) 0 0 none

/-- SNAPSHOT (R426). -/
def execSnapshot (cmd : Nat) (s : State) : Answer := .next (runCmd s cmd [0x8C] snapshot)

/-! ## GCTL_STOP_CTL -/

/-- Release scheduled at R (R438). -/
def State.scheduleRelease (s : State) (reset : Bool) : State :=
  let r := alignUp (s.now + 2000) 4
  let s := (s.setReg64 Reg.resumeLo Reg.resumeHi r).setFld Reg.stopStatus 0 3 5
  { s with clk := { s.clk with resumeAt := r, stopReset := reset } }

/-- A write of GCTL_STOP_CTL by the physical function (R427, R429, R438): ACTION is stored, then each request bit acts. -/
def State.writeStopCtl (s : State) (v : Nat) : State :=
  let action := bits v 4 2
  let s := s.setFld Reg.stopCtl 4 2 action
  let t := alignUp (s.reg64 Reg.stopLo Reg.stopHi) 4
  let s := if !bitB v 0 then s
    else if s.stopCause s.now t action = 0 then s.armStop t action 0 else s.setFld Reg.stopStatus 6 1 1
  let st := s.fld Reg.stopStatus 0 3
  let s := if !bitB v 1 ∨ st = 0 then s
    else if st = 1 ∧ s.now + 2000 < s.clk.stopT then s.setFld Reg.stopStatus 0 3 0 else s.setFld Reg.stopStatus 3 1 1
  if (bitB v 2 ∨ bitB v 3) ∧ s.fld Reg.stopStatus 0 3 = 4 then s.scheduleRelease (bitB v 3) else s

/-- A row of GCTL_STOP_CTL: the write with the bit that the row names. -/
def stopCtlRow (fn bit : Nat) (val : BitVec 32) (s : State) : Answer :=
  regWriteRow s fn Reg.stopCtl (if fn = 0 ∧ bitB val.toNat bit = true then s.writeStopCtl val.toNat else s)

/-- STOP_ARM (R427). -/
def execStopArm (fn : Nat) (val : BitVec 32) (s : State) : Answer := stopCtlRow fn 0 val s
/-- STOP_CANCEL (R429). -/
def execStopCancel (fn : Nat) (val : BitVec 32) (s : State) : Answer := stopCtlRow fn 1 val s
/-- STOP_RESUME (R438). -/
def execStopResume (fn : Nat) (val : BitVec 32) (s : State) : Answer := stopCtlRow fn 2 val s
/-- STOP_RESET (R438). -/
def execStopReset (fn : Nat) (val : BitVec 32) (s : State) : Answer := stopCtlRow fn 3 val s

/-! ## The cut and its dump -/

/-- STOP_TIME_REACHED (R430). -/
def execStopTimeReached (t : Nat) (s : State) : Answer :=
  let s1 := s.atTime t
  when (s.alive && s.fld Reg.stopStatus 0 3 == 1 && s.clk.stopT ≤ s1.now) s (s1.setFld Reg.stopStatus 0 3 2)

/-- STOP_ALL_HALTED (R437): the spans recorded (R430). -/
def execStopAllHalted (span frameSpan t : Nat) (s : State) : Answer :=
  let s1 := (s.atTime t).setFld Reg.stopStatus 0 3 3
  when (s.alive && s.fld Reg.stopStatus 0 3 == 2) s
    ((s1.setFld Reg.stopSpan 0 16 (min span 65535)).setFld Reg.stopSpan 16 16 (min frameSpan 65535))

/-- STOP_DUMP_DONE (R437, R438): the dump unless one stands, then STATE 4, from which ACTION may release. -/
def execStopDumpDone (t : Nat) (s : State) : Answer :=
  let wrote := 1 - s.fld Reg.ras 4 1
  let s1 := (((s.atTime t).writeDump 2 s.clk.stopT s.clk.stopT).setFld Reg.stopStatus 4 1 wrote).setFld Reg.stopStatus 0 3 4
  when (s.alive && s.fld Reg.stopStatus 0 3 == 3) s
    (if s.clk.stopAction = 1 ∨ s.clk.stopAction = 2 then s1.scheduleRelease (s.clk.stopAction == 2) else s1)

/-! ## Release -/

/-- A moment moved later by `d` if there is one. -/
def later (d : Nat) (x : Option Nat) : Option Nat := x.map (· + d)

/-- A port's timers moved later by `d` (R435), one that began during the stop to its end `now`. Its keep-alive runs through the stop
(R432). -/
def Port.later (d now : Nat) (x : Port) : Port := { x with
  unacked := x.unacked.map (fun y => { y with sentAt := y.sentAt + d })
  msgs := x.msgs.map (fun m => { m with rnrUntil := Machine.later d m.rnrUntil, rnrSince := Machine.later d m.rnrSince })
  ackAt := Machine.later d x.ackAt
  downAt := x.downAt.map (fun t => min now (t + d))
  halvedAt := Machine.later d x.halvedAt
  lastHello := min now (x.lastHello + d)
  lastRx := min now (x.lastRx + d) }

/-- Every timer kept in TCLK moved later by `d` (R435): wait deadlines, MOD_TIME, the replay windows, the watchdogs, the transport's
timers, the drain bound and the derating hour. -/
def State.suspend (s : State) (d : Nat) : State :=
  let fe := { s.fe with
    cmds := s.fe.cmds.map (fun c => { c with deadline := c.deadline + d, begun := c.begun + d })
    cqs := s.fe.cqs.map (fun e => (e.1, if e.2.fresh = 0 then e.2 else { e.2 with oldest := e.2.oldest + d })) }
  let parts := s.parts.map (fun e => (e.1, { e.2 with
    drainAt := Machine.later d e.2.drainAt, obsHeld := Machine.later d e.2.obsHeld }))
  let cores := s.cores.map (fun e => (e.1, { e.2 with
    windows := e.2.windows.map (fun w => if w.1 % 2 = 0 then (w.1, w.2 + d) else w)
    prog := e.2.prog.map (fun w => (w.1, w.2 + d)) }))
  let s := { s with fe, parts, cores, ras := { s.ras with derateAt := s.ras.derateAt.map (fun e => (e.1, e.2 + d)) } }
  (List.range 4).foldl (fun s n => s.updPort n (Port.later d s.now)) s

/-- The state an answer leaves, or the old one. -/
def nextOr (a : Answer) (s : State) : State := match a with
  | .next t => t
  | _ => s

/-- Traffic that a stop held, applied (R433). -/
def State.applyHeld (s : State) (i : Instr) : State :=
  match i with
  | .submissionDoorbell fn off size val => nextOr (execSubmissionDoorbell fn off size val s) s
  | .ringFetchCompletion q a b slots => nextOr (execRingFetchCompletion q a b slots s) s
  | .hostReadCompletion fn tag ok data => nextOr (execHostReadCompletion fn tag ok data s) s
  | .bar4Write off data => nextOr (execBar4Write off data s) s
  | .bar4Read off len => nextOr (execBar4Read off len s) s
  | .rxWrite n f => nextOr (execRxWrite n f s) s
  | .rxSend n f => nextOr (execRxSend n f s) s
  | .rxAtomicAdd n f => nextOr (execRxAtomicAdd n f s) s
  | .rxAbort n f => nextOr (execRxAbort n f s) s
  | .rxCancel n f => nextOr (execRxCancel n f s) s
  | .rxAck n f => nextOr (execRxAck n f s) s
  | .rxNak n f => nextOr (execRxNak n f s) s
  | .rxRnr n f => nextOr (execRxRnr n f s) s
  | .rxRefuse n f => nextOr (execRxRefuse n f s) s
  | .rxHello n o e p c t => nextOr (execRxHello n o e p c t s) s
  | .functionLevelReset fn => nextOr (execFunctionLevelReset fn s) s
  | .imageFetched ok img cert => nextOr (execImageFetched ok img cert s) s
  | .getVersion r => nextOr (execGetVersion r s) s
  | .getCapabilities r => nextOr (execGetCapabilities r s) s
  | .negotiateAlgorithms r o => nextOr (execNegotiateAlgorithms r o s) s
  | .getDigests r => nextOr (execGetDigests r s) s
  | .getCertificate r a b n => nextOr (execGetCertificate r a b n s) s
  | .challenge r a n => nextOr (execChallenge r a n s) s
  | .getMeasurements r b n => nextOr (execGetMeasurements r b n s) s
  | .keyExchange r x => nextOr (execKeyExchange r x s) s
  | .finish r x v => nextOr (execFinish r x v s) s
  | .keyUpdate r x => nextOr (execKeyUpdate r x s) s
  | .heartbeat r x => nextOr (execHeartbeat r x s) s
  | .endSession r x => nextOr (execEndSession r x s) s
  | .chunkSend r h q l d => nextOr (execChunkSend r h q l d s) s
  | .chunkGet r h q => nextOr (execChunkGet r h q s) s
  | .vendorDefinedRequest r v c p n => nextOr (execVendorDefinedRequest r v c p n s) s
  | .ideKm r x st k => nextOr (execIdeKm r x st k s) s
  | _ => s

/-- The release (R418, R433, R435, R436, R438): timers later by D, the throttle level, compute resets if asked for, and the held
traffic. -/
def State.released (s : State) : State :=
  let d := s.clk.resumeAt - s.clk.stopT
  let held := s.fe.stopHeld
  let s := (s.suspend d).setFld Reg.stopStatus 0 3 0
  let s := s.setFld Reg.clkStatus 0 4 (max s.mgmt.thermal s.mgmt.power)
  let s : State := { s with fe := { s.fe with stopHeld := [] } }
  let s := if s.clk.stopReset then (List.range 8).foldl (fun s p => s.needReset p) s else s
  held.foldl State.applyHeld s

/-- STOP_RELEASE (R438). -/
def execStopRelease (t : Nat) (s : State) : Answer :=
  let s1 := s.atTime t
  when (s.alive && s.fld Reg.stopStatus 0 3 == 5 && s.clk.resumeAt ≤ s1.now) s s1.released

end Sys2Proof.Machine
end

