-- ==== Sys2Proof/Machine/RegWrite.lean ====
section
/-!
DEFINITION. A write of BAR0 (R9, R10): malformed writes counted, a 64-bit write as two register writes, every register by the
access types of its table, and a register that has a row of its own by that row.
-/
namespace Sys2Proof.Machine

/-- The unit whose FAULTY bit a register holds (R163, R202, R361). -/
def faultyAt (off : Nat) : Option (Nat × CoreUnit) :=
  match blockOf off 0x800000 0x10000 24, blockOf off 0x1500400 4 24 with
  | some c, _ =>
    if off % 0x10000 = 0x508 then some (c, .vector) else if off % 0x10000 = 0x608 then some (c, .attention) else none
  | none, some c => if off % 4 = 0 then some (c, .dma) else none
  | none, none => none

/-- A write of a FAULTY bit: 1 retires the unit (R510), 0 returns it to service (R342). -/
def State.writeFaulty (s : State) (fn core : Nat) (u : CoreUnit) (v : Word) : State :=
  if bitB v.toNat 0 then nextOr (execUnitRetire fn core u s) s else nextOr (execUnitReturnToService fn core u s) s

/-- A write of a core's fence register: the bits that read 1 and are written 0 begin their self-test (R342), the bits that read
0 and are written 1 fence (R102). -/
def State.writeFence (s : State) (fn core : Nat) (v : Word) : State :=
  let back := (List.range 4).filter fun a => !bitB v.toNat a && s.fld (Reg.arrayFence core) a 1 == 1
  let s := back.foldl (fun s a => nextOr (execUnitReturnToService fn core (.array a) s) s) s
  nextOr (execArrayFenceSet fn core v s) s

/-- A write of GCTL_STOP_CTL with any request bits. -/
def State.writeStop (s : State) (fn : Nat) (v : Word) : State :=
  nextOr (regWriteRow s fn Reg.stopCtl (if fn = 0 then s.writeStopCtl v.toNat else s)) s

/-- The bits that a write stores in a dword of an MSI-X vector (R280; PRESUMED, log entry 18). -/
def msixStores (off : Nat) : Word :=
  if off % 16 = 0 then 0xFFFFFFFC else if off % 16 = 12 then 1 else 0xFFFFFFFF

/-- A dword of a function's MSI-X table written; a vector whose mask is clear sends what is pending (R276). -/
def State.writeMsix (s : State) (fn off : Nat) (v : Word) : State :=
  let k := regKey fn off
  let t := (s.setReg k (regWrite (s.reg k) (msixStores off) 0 v)).sendPending fn ((off - msixBase) / 16)
  nextOr (regWriteRow s fn off t) s

/-- Whether a register ignores a write: a field kept for the physical function (R231, R257), or a SEC_BOOT_ register once STATE
is 4 (R393). -/
def State.ignoresWrite (s : State) (fn off : Nat) : Bool :=
  (fn != 0 && (blockOf off 0x300000 0x1000 8).isSome && off % 0x1000 == 0x14) ||
    (Reg.imgLo ≤ off && off ≤ Reg.certBytes && s.fld Reg.secStatus 0 4 == 4)

/-- A write of a register without a row of its own (R10). -/
def State.writePlain (s : State) (fn off : Nat) (v : Word) : State :=
  match regRow? off with
  | none => s
  | some r =>
    if s.ignoresWrite fn off then s
    else
      let k := regKey fn off
      let t := s.setReg k (regWrite (s.reg k) (BitVec.ofNat 32 r.rw) (BitVec.ofNat 32 r.w1c) v)
      let t := match counterAt off with | some (core, i) => t.dropCapture core (i / 2) | none => t
      nextOr (regWriteRow s fn off t) s

/-- A write of a register of the global, front-end, integrity, security or mailbox block that acts. -/
def State.writeActing (s : State) (fn off : Nat) (v : Word) : Option State :=
  if off = Reg.stopCtl then some (s.writeStop fn v)
  else if off = Reg.adminCtl then
    some (if bitB v.toNat 30 then nextOr (execAdminEnable fn v s) s else nextOr (execAdminDisable fn v s) s)
  else if off = Reg.bar4 then some (nextOr (execBar4WindowWrite fn v s) s)
  else if off = Reg.ideRequired then some (nextOr (execIdeRequiredWrite fn v s) s)
  else if off = Reg.rasIrq then some (nextOr (execRasIrqWrite fn v s) s)
  else if off = 0x150001C then some (nextOr (execFirmwareRestart fn v s) s)
  else if off = 0x170001C then some (nextOr (execGo fn v s) s)
  else if off = 0x1700028 then some (nextOr (execDebugClose fn v s) s)
  else if off = Reg.mbxTherm ∨ off = Reg.mbxLimit then some (nextOr (execThresholdWrite fn off v s) s)
  else none

/-- A write of a register of a core, a port or a partition that acts, or of a vector or a head doorbell. -/
def State.writeUnit (s : State) (fn off : Nat) (v : Word) : Option State :=
  match faultyAt off with
  | some (c, u) => some (s.writeFaulty fn c u v)
  | none =>
  match blockOf off 0x800000 0x10000 24, blockOf off 0x1000000 0x100000 4, blockOf off 0x180000 8 65536 with
  | some c, _, _ => if off % 0x10000 = 0x204 then some (s.writeFence fn c v) else none
  | none, some p, _ => if off % 0x100000 = 4 ∧ bitB v.toNat 10 = true then some (nextOr (execRetrain fn p v s) s) else none
  | none, none, some c =>
    if off % 8 = 0 then some (nextOr (execCompletionHeadDoorbell fn c (v.setWidth 64) s) s) else none
  | none, none, none =>
  match blockOf off 0x1600000 0x10 1536, blockOf off 0x1608000 0x40 8 with
  | some i, _ => if off % 16 = 0 then some (nextOr (execCounterCfgWrite fn (i / 64) (i % 64) v s) s) else none
  | none, some p => if off % 0x40 = 0x10 then some (nextOr (execFire fn p v s) s) else none
  | none, none => if msixBase ≤ off ∧ off < msixBase + 0x8000 then some (s.writeMsix fn off v) else none

/-- A 32-bit write to an aligned offset of BAR0. -/
def State.write32 (s : State) (fn off : Nat) (v : Word) : State :=
  match s.writeActing fn off v with
  | some t => t
  | none => match s.writeUnit fn off v with
    | some t => t
    | none => s.writePlain fn off v

/-- Whether a write keeps the form that R9 asks for. -/
def barWriteOk (off size : Nat) : Bool := (size == 4 || size == 8) && off % size == 0

/-- The 32-bit writes of an access, the lower offset first (R9). -/
def barWrites (off size : Nat) (val : BitVec 64) : List (Nat × Word) :=
  if size = 8 then [(off, val.setWidth 32), (off + 4, BitVec.ofNat 32 (val.toNat / 2 ^ 32))] else [(off, val.setWidth 32)]

/-- Whether a stop lets a write to a register through (R433). -/
def stopLets (off : Nat) : Bool := off == Reg.stopCtl || off == Reg.rasWindow

/-- The registers of an access written; during a stop only those that it lets through, and a write with none of them is dropped
and counted (R433). -/
def State.barWrite (s : State) (fn off size : Nat) (val : BitVec 64) : State :=
  let ws := barWrites off size val
  if s.stopped then
    if ws.any (fun w => stopLets w.1) then (ws.filter (fun w => stopLets w.1)).foldl (fun s w => s.write32 fn w.1 w.2) s
    else s.bump Reg.stopDrops 0 32 1
  else ws.foldl (fun s w => s.write32 fn w.1 w.2) s

/-- A write that R9 drops: one narrower than 32 bits, or not aligned to its size, is counted whichever function sent it and
wherever it lands; a stop counts it among its drops too. -/
def State.barBad (s : State) (size : Nat) : State :=
  let s := if s.stopped then s.bump Reg.stopDrops 0 32 1 else s
  if size < 4 ∨ size = 4 ∨ size = 8 then s.bump Reg.barErrors 0 32 1 else s

/-- Whether a request of a function travels in a live IDE stream (R278). -/
def State.streams (s : State) (fn : Nat) : Bool := s.fld (regKey fn Reg.feLink) 9 1 == 1

/-- REGISTER_WRITE (R9, R10). A request that fails the check of its live stream is dropped and reported (R278). -/
def execRegisterWrite (fn off size : Nat) (val : BitVec 64) (ideOk : Bool) (s : State) : Answer :=
  if 9 ≤ fn ∨ 2 ^ 26 < off + size then .next s
  else if !s.reaches fn then .next s
  else if s.streams fn && !ideOk then .next (s.emit (.aer fn))
  else .next (if barWriteOk off size then s.barWrite fn off size val else s.barBad size)

end Sys2Proof.Machine
end

