-- ==== Sys2Proof/Machine/VecMem.lean ====
section
/-!
DEFINITION. The vector engine's memory instructions (R142, R144, R149 to R152, R158): lane addresses, the regions an image
declares (R155, R161), the data cache under global accesses (R226, R227, R244, R245), conversion on load and store (R49, R53),
and the instructions LD, ST, LDG, STS, ROT, SLD and SST.
-/
namespace Sys2Proof.Machine

/-! ## Lane addresses and regions -/

/-- Why a memory instruction stops: a status, or a failed access. -/
inductive VErr where
  | status (st : Nat)
  | access (e : AccErr)

/-- The instruction's end under an error. -/
def VErr.out (e : VErr) (s : State) : VOut :=
  match e with
  | .status st => .stop s st
  | .access a => .fail s a

/-- The regions of the core's SRAM that an image may declare: first offset, end, REGIONS bit (R142, R155). -/
def vecRegions : List (Nat × Nat × Nat) :=
  [(0x400000, 0x800000, 5), (0x800000, 0x900000, 4), (0x900000, 0x940000, 0), (0x940000, 0x980000, 1),
   (0x980000, 0x9C0000, 2), (0x9C0000, 0xA00000, 3)]

/-- The region of a local offset. -/
def vecRegion (a : Nat) : Option (Nat × Nat × Nat) := vecRegions.find? (fun r => r.1 ≤ a && a < r.2.1)

/-- Whether `n` bytes at an address may be accessed: a declared region that does not end within them, or declared global
space (R155, R161). `home` is the region that a whole access must stay in (R152). -/
def regionOk (regs : Nat) (glob : Bool) (home : Option Nat) (a n : Nat) : Bool :=
  if glob then bitB regs 6
  else match vecRegion a with
    | some r => bitB regs r.2.2 && a + n ≤ r.2.1 && (home.isNone || home == some r.1)
    | none => false

/-- Byte and bit of an element: 2^64 wraps, and elements are packed as in R40. -/
def elemAt (base w : Nat) (i : Int) : Nat × Nat :=
  ((((base : Int) + i * w / 8) % (2 ^ 64 : Nat)).toNat, ((i * w) % 8).toNat)

/-- The bytes that an element touches. -/
def elemLen (bit w : Nat) : Nat := (bit + w + 7) / 8

/-! ## Global reads -/

/-- A line of a core's cache. -/
def State.cacheLine (s : State) (core unit : Nat) : Option Line := (s.core core).cache.find? (fun l => l.unit == unit)

/-- A line put into the cache in place of its unit's old one, as the most recently used: a cache lists its lines from the least to
the most recently used. -/
def State.putLine (s : State) (core : Nat) (l : Line) : State :=
  s.updCore core fun k => { k with cache := k.cache.filter (fun x => x.unit != l.unit) ++ [l] }

/-- A core's cache with room for a unit: of a full set, a line leaves, written back if dirty (R226). Which one a pseudo-least-
recently-used choice takes is free but for the most recently used line, which none takes (log entry 64). The set of a unit is its
number modulo 512. -/
def State.evictFor (s : State) (p core unit : Nat) : State × Option AccErr :=
  let set := (s.core core).cache.filter (fun l => l.unit % 512 == unit % 512)
  if set.length < 16 then (s, none)
  else match set[Config.freeNat s.free unit % (set.length - 1)]? with
    | none => (s, none)
    | some v =>
      let s := (s.updCore core fun k => { k with cache := k.cache.filter (fun x => x.unit != v.unit) }).draw
      s.writeLine p core v

/-- A unit read from HBM into a core's cache: single-bit errors corrected, uncorrectable words marked and, but for those the access
needs and so reports itself, counted (R213, R230). -/
def State.fillLine (s : State) (p core unit need : Nat) : State × Option AccErr :=
  if s.offline (unit * 64 / stackBase 1) then (s, some { cacheErr p core (unit * 64) 0x0311 with write := false, dpa := none })
  else match s.evictFor p core unit with
    | (s1, some e) => (s1, some e)
    | (s1, none) =>
      let s1 := (List.range 4).foldl (fun s i => let w := unit * 4 + i
        if s.hbmBad w then (if bitB need i then s else s.noteHbm (16 * w) true)
        else if s.mem.hbmOne.get (fun _ => false) w then s.fixHbm w else s) s1
      (s1.putLine core { unit, data := s1.mem.hbm.readN Config.blankByte (unit * 64) 64,
                         bad := (List.range 4).foldl (fun m i => m + b2n (s1.hbmBad (unit * 4 + i)) * 2 ^ i) 0 }, none)

/-- A line for an access that depends on the old contents of the words `need`: a hit, or a fill; a clean line with an
uncorrectable word is read again, and a word that stays uncorrectable ends the access (R213, R214, R226, R338). -/
def State.useLine (s : State) (p core unit need : Nat) : State × Except AccErr Line :=
  let hit := match s.cacheLine core unit with
    | some l => l.bad &&& need == 0 || l.dirty != 0
    | none => false
  let s := s.count core (if (s.cacheLine core unit).isSome then 0x55 else 0x56) 1
  let r := if hit then (s, none) else s.fillLine p core unit need
  match r with
  | (s1, some e) => (s1, .error e)
  | (s1, none) =>
    match s1.cacheLine core unit with
    | none => (s1, .error (cacheErr p core (unit * 64) 0x0310))
    | some l =>
      if l.bad &&& need = 0 then (s1.putLine core l, .ok l)
      else if l.dirty ≠ 0 then
        (s1, .error { cacheErr p core (unit * 64) 0x0310 with write := false, dpa := none, sram := some (sramKey core 0) })
      else (s1, .error { cacheErr p core (unit * 64) 0x0310 with write := false })

/-- The 128-bit words of a unit that bytes `[o, o + n)` touch, as a mask. -/
def wordMask (o n : Nat) : Nat :=
  (List.range 4).foldl (fun m i => m + b2n (overlap o n (16 * i) 16) * 2 ^ i) 0

/-- The pieces of a list of byte ranges, each within one 64-byte unit. -/
def unitPieces (rs : List (Nat × Nat)) : List (Nat × Nat) := rs.flatMap (fun r => piecesOf r.1 r.2)

/-- The units of a list of pieces, in order of first touch. -/
def unitOrder (ps : List (Nat × Nat)) : List Nat := (ps.map (fun p => p.1 / 64)).eraseDups

/-- The words of a unit that pieces touch. -/
def needOf (ps : List (Nat × Nat)) (u : Nat) : Nat :=
  ps.foldl (fun m p => if p.1 / 64 = u then m ||| wordMask (p.1 % 64) p.2 else m) 0

/-- Where a unit of device virtual addresses lies, as the first of its pieces that translates badly says (R223). -/
def State.unitPlace (s : State) (a : Acc) (ps : List (Nat × Nat)) (u : Nat) (write : Bool) : Except AccErr (Nat × Bool) :=
  match (ps.filter (fun p => p.1 / 64 == u)).findSome? (fun p => match s.translate a p.1 p.2 write with
      | .error e => some e
      | .ok _ => none) with
  | some e => .error e
  | none => match s.translate a (u * 64) 1 false with
    | .ok (.hbm d _, nc) => .ok (d / 64, nc)
    | .ok (.host _, _) => .error (a.err 0x0304 (u * 64) write)
    | .error e => .error e

/-- The 64 bytes of each unit that pieces touch, through the cache, or from HBM for a NOCACHE page (R226, R245). -/
def State.loadUnits (s : State) (a : Acc) (core : Nat) (ps : List (Nat × Nat)) :
    List Nat → State × Except AccErr (List (Nat × List Byte))
  | [] => (s, .ok [])
  | u :: us =>
    let r : State × Except AccErr (List Byte) := match s.unitPlace a ps u false with
      | .error e => (s, .error e)
      | .ok (unit, true) =>
        (s, match (ps.filter (fun p => p.1 / 64 == u)).findSome? (fun p =>
              match s.readHbm a p.1 (unit * 64 + p.1 % 64) p.2 with
              | .error e => some e
              | .ok _ => none) with
          | some e => .error e
          | none => .ok (s.mem.hbm.readN Config.blankByte (unit * 64) 64))
      | .ok (unit, false) => match s.useLine a.part core unit (needOf ps u) with
        | (s1, .error e) => (s1, .error { e with asid := a.asid, dva := u * 64 })
        | (s1, .ok l) => (s1, .ok l.data)
    match r with
    | (s1, .error e) => (s1, .error e)
    | (s1, .ok b) =>
      match s1.loadUnits a core ps us with
      | (s2, .error e) => (s2, .error e)
      | (s2, .ok rest) => (s2, .ok ((u, b) :: rest))

/-- A byte of the loaded units. -/
def unitByte (us : List (Nat × List Byte)) (x : Nat) : Byte :=
  match us.find? (fun u => u.1 == x / 64) with
  | some u => u.2[x % 64]?.getD 0
  | none => 0

/-- The single-bit errors in the local words that a list of ranges reads, corrected (R213). -/
def State.fixLocal (s : State) (core : Nat) (rs : List (Nat × Nat)) : State :=
  (s.mem.sramOne.filter (fun e => e.2 && rs.any (fun r => (wordsOf (sramKey core r.1) r.2).contains e.1))).foldl
    (fun s e => s.fixSram e.1) s

/-- The bytes of a list of ranges: local ones from SRAM, global ones through the cache. -/
def State.vecRead (s : State) (a : Acc) (core : Nat) (glob : Bool) (rs : List (Nat × Nat)) :
    State × Except VErr (List (List Byte)) :=
  if glob then
    let ps := unitPieces rs
    match s.loadUnits a core ps (unitOrder ps) with
    | (s1, .error e) => (s1, .error (.access e))
    | (s1, .ok us) => (s1, .ok (rs.map (fun r => (List.range r.2).map (fun i => unitByte us (r.1 + i)))))
  else (s.fixLocal core rs, match go rs with
    | .error e => .error (.access e)
    | .ok bs => .ok bs)
where
  /-- Local ranges in order. -/
  go : List (Nat × Nat) → Except AccErr (List (List Byte))
    | [] => .ok []
    | r :: rs => match s.readSram a core r.1 r.2 with
      | .error e => .error e
      | .ok b => match go rs with
        | .error e => .error e
        | .ok bs => .ok (b :: bs)

/-! ## Stores -/

/-- Bits written to bytes: a mask of the bits written and their values, by address. -/
abbrev Writes := Tbl (Nat × Nat)

/-- An element of `w` bits added; later lanes replace the bits of earlier ones (R149). -/
def addElem (t : Writes) (byte bit w code : Nat) : Writes :=
  (List.range (elemLen bit w)).foldl (fun t j =>
    let m := bits ((2 ^ w - 1) * 2 ^ bit) (8 * j) 8
    let v := bits (code % 2 ^ w * 2 ^ bit) (8 * j) 8
    t.upd (fun _ => (0, 0)) (byte + j) (fun x => (x.1 ||| m, (x.2 &&& (255 - m)) ||| v))) t

/-- A byte after a write of some of its bits. -/
def mixByte (old : Byte) (x : Nat × Nat) : Byte := BitVec.ofNat 8 ((old.toNat &&& (255 - x.1)) ||| x.2)

/-- Consecutive addresses joined into runs of bytes. -/
def joinBytes : List (Nat × Byte) → List (Nat × List Byte)
  | [] => []
  | (a, b) :: t =>
    match joinBytes t with
    | (c, bs) :: u => if a + 1 = c then (a, b :: bs) :: u else (a, [b]) :: (c, bs) :: u
    | [] => [(a, [b])]

/-- Local bytes stored, in runs; a bad word that a run covers only in part ends the store (R214). -/
def State.storeLocal (s : State) (a : Acc) (core : Nat) : List (Nat × List Byte) → State × Option AccErr
  | [] => (s, none)
  | r :: rs => match s.writeSram a core r.1 r.2 with
    | (s1, some e) => (s1, some e)
    | (s1, none) => s1.storeLocal a core rs

/-- The bytes of one unit after its writes, and the mask of bytes written. -/
def unitWrites (t : Writes) (u : Nat) (old : List Byte) : List Byte × Nat :=
  let xs := t.filter (fun x => x.1 / 64 == u)
  (old.mapIdx (fun i b => match xs.find? (fun x => x.1 % 64 == i) with
    | some x => mixByte b x.2
    | none => b), xs.foldl (fun m x => m + 2 ^ (x.1 % 64)) 0)

/-- The words of a unit that a mask of bytes writes only in part, and those it writes whole. -/
def partWords (dirty : Nat) : Nat :=
  (List.range 4).foldl (fun m i => m + b2n (bits dirty (16 * i) 16 != 0 && bits dirty (16 * i) 16 != 0xFFFF) * 2 ^ i) 0
def fullWords (dirty : Nat) : Nat :=
  (List.range 4).foldl (fun m i => m + b2n (bits dirty (16 * i) 16 == 0xFFFF) * 2 ^ i) 0

/-- Global bytes stored unit by unit: into the cache, which allocates, or to HBM for a NOCACHE page (R214, R226, R244). -/
def State.storeUnits (s : State) (a : Acc) (core : Nat) (t : Writes) : List Nat → State × Option AccErr
  | [] => (s, none)
  | u :: us =>
    let ps := (t.filter (fun x => x.1 / 64 == u)).map (fun x => (x.1, 1))
    let r : State × Option AccErr := match s.unitPlace a ps u true with
      | .error e => (s, some e)
      | .ok (unit, true) =>
        let w := unitWrites t u (s.mem.hbm.readN Config.blankByte (unit * 64) 64)
        s.putUnit a.part core { unit, data := w.1, dirty := w.2 }
      | .ok (unit, false) =>
        let need := partWords (unitWrites t u (List.replicate 64 0)).2
        match s.useLine a.part core unit need with
        | (s1, .error e) => (s1, some { e with asid := a.asid, dva := u * 64, write := true })
        | (s1, .ok l) =>
          let w := unitWrites t u l.data
          (s1.putLine core { l with data := w.1, dirty := l.dirty ||| w.2, bad := l.bad &&& (15 - fullWords w.2) }, none)
    match r with
    | (s1, some e) => (s1, some e)
    | (s1, none) => s1.storeUnits a core t us

/-- Bits stored at local or global addresses. -/
def State.vecWrite (s : State) (a : Acc) (core : Nat) (glob : Bool) (t : Writes) : State × Option AccErr :=
  if glob then s.storeUnits a core t (t.map (fun x => x.1 / 64)).eraseDups
  else s.storeLocal a core (joinBytes (t.map (fun x => (x.1, mixByte (s.sramByte (sramKey core x.1)) x.2))))

/-- A run that has executed a store, which R349 does not run again. -/
def State.markStore (s : State) (c : Cmd) : State := s.updCmd c.id fun c => { c with dirty := true }

/-! ## The operands of format L -/

def vlElem (v : VL) : Nat := bits v.fmt.toNat 0 4
def vlSf (v : VL) : Nat := bits v.fmt.toNat 4 2
def vlBits (v : VL) : Nat := elemBits (vlElem v)

/-- The base address: S[SBASE] plus OFFSET units of 64 bytes (R144). -/
def vlBase (v : VL) (s : State) : Nat := (s.sreg v.core v.sbase + v.off.signExtend 64 * 64).toNat

/-- The number of the element that an access begins with: OFFSET moves through the data plane at S[SBASE], and the scale plane at
S[SBASE + 1] follows it (R144, R151; DEDUCED, log entry 65). -/
def vlFirst (v : VL) : Int := v.off.toInt * 512 / vlBits v

/-- Elements to a block of a format word. -/
def vlBlock (v : VL) : Nat := 16 * 2 ^ bits v.fmt.toNat 6 2

/-- Whether a scaled access begins on a block boundary (R151): with an element of the plane and, where blocks lie along a row, with
a block's first. -/
def vlOnBlock (v : VL) : Bool :=
  vlSf v == 0 || (v.off.toInt * 512 % vlBits v == 0 && (bitB v.fmt.toNat 8 || vlFirst v % vlBlock v == 0))

/-- The scale plane's address, of the register after SBASE (R144). -/
def vlScale (v : VL) (s : State) : Nat := (s.sreg v.core ((v.sbase + 1) % 32)).toNat

/-- The element number of lane `i`: its own, or the signed lane of V[VIDX] for a gather or scatter (R145). -/
def vlIndex (gather : Bool) (idx : List Word) (i : Nat) : Int :=
  if gather then (idx[i]?.getD 0).toInt else i

/-- The place of an element's scale in the scale plane: one per block, or one per element when blocks run across rows
(R50, R52, R151). -/
def vlScaleAt (v : VL) (s : State) (k : Int) : Nat :=
  elemAt (vlScale v s) 8 (if bitB v.fmt.toNat 8 then vlFirst v + k else (vlFirst v + k) / vlBlock v) |>.1

/-- Whether a lane's access may be made: its regions, its alignment, and for LD and ST the region of the base (R151, R152,
R161). -/
def vlLaneOk (v : VL) (s : State) (gather : Bool) (regs : Nat) (k : Int) : Bool :=
  let base := vlBase v s
  let e := elemAt base (vlBits v) k
  let home := if gather then none else (vecRegion base).map (·.1)
  regionOk regs v.glob home e.1 (elemLen e.2 (vlBits v)) && (vlBits v < 8 || e.1 % (vlBits v / 8) == 0) &&
    (vlSf v == 0 || regionOk regs v.glob none (vlScaleAt v s k) 1)

/-- The element number of every lane (R144, R145). -/
def vlLanes (gather : Bool) (v : VL) (s : State) : List (Nat × Int) :=
  (List.range 512).map (fun i => (i, vlIndex gather (s.vreg v.core v.vidx) i))

/-- Whether LD, ST, LDG or STS finds its base aligned, a scaled access on a block boundary, and every active lane accessible (R151,
R152, R161). -/
def vlMay (gather : Bool) (v : VL) (regs : Nat) (s : State) : Bool :=
  let on := (vlLanes gather v s).filter (fun k => (s.mreg v.core v.mask).getLsbD k.1)
  (on.isEmpty || ((gather || vlBase v s % 64 == 0) && vlOnBlock v)) && on.all (fun k => vlLaneOk v s gather regs k.2)

/-! ## Loads -/

/-- A loaded element as a lane and its flag: FP32, or INT32 of an integer format. What R151 does not state, an INT32 lane from
a floating-point format or from a scaled integer that INT32 does not hold, is a free value (log entry 7). -/
def loadLane (v : VL) (free i : Nat) (code scale : Nat) : Nat × Nat :=
  let x := scaled (vlSf v) scale (elemVal (vlElem v) code)
  let fl := if vlSf v ≠ 0 ∧ scaleVal (vlSf v) scale = .nan then scaleSpecial else 0
  if !v.int then (toF32 x, fl)
  else match x with
    | .fin neg m e =>
      let q := m * 2 ^ e.toNat / 2 ^ (-e).toNat
      if isInt (vlElem v) && q * 2 ^ (-e).toNat == m * 2 ^ e.toNat && q < 2 ^ 31 then (unsgn 32 (signInt neg q), fl)
      else ((Config.freeWord free i).toNat, fl)
    | _ => ((Config.freeWord free i).toNat, fl)

/-- LD and LDG (R144, R145, R150, R151). -/
def vecLoad (gather : Bool) (v : VL) (c : Cmd) (r : VRun) (s : State) : VOut :=
  let regs := num (s.runImage c r) 8 1
  let act := s.mreg v.core v.mask
  let idx := s.vreg v.core v.vidx
  let lanes := (List.range 512).filter (fun i => act.getLsbD i)
  let ks := lanes.map (vlIndex gather idx)
  if !vlMay gather v regs s then .stop s 0x0320
  else
    let a := s.accOf c v.core false
    let es := ks.map (elemAt (vlBase v s) (vlBits v))
    let scs := if vlSf v = 0 then [] else ks.map (fun k => (vlScaleAt v s k, 1))
    match s.vecRead a v.core v.glob (es.map (fun e => (e.1, elemLen e.2 (vlBits v))) ++ scs) with
    | (s1, .error e) => e.out s1
    | (s1, .ok bs) =>
      let sc := (bs.drop ks.length).map leNat
      if vlSf v ≠ 0 ∧ sc.any (scaleNegative (vlSf v)) then .stop s1 0x0112
      else
        let xs := (bs.take ks.length).zip es |>.mapIdx (fun i x =>
          loadLane v s1.free (lanes.getD i 0) (bits (leNat x.1) x.2.2 (vlBits v)) (sc.getD i 0))
        let fl := xs.foldl (fun n x => n ||| x.2) 0
        let old := s1.vreg v.core v.vr
        let s2 := ((s1.addConv v.core fl).noteConv v.core fl 0).setVreg v.core v.vr
          (laneMerge act v.zm old (scatterBack act 0 old (xs.map (·.1))))
        .next (if v.int then s2.draw else s2)

/-- LD (R145, R151). -/
def execVLd (v : VL) (s : State) : Answer := vecStep v.core v.chk (vlFits v) (vlWord 0x60 v) (vecLoad false v) s

/-- LDG (R145, R151). -/
def execVLdg (v : VL) (s : State) : Answer := vecStep v.core v.chk (vlFits v) (vlWord 0x62 v) (vecLoad true v) s

/-! ## Stores -/

/-- A lane as a value to store: FP32, or an integer with TYPE 1 (R151). -/
def storeVal (v : VL) (x : Nat) : Val := if v.int then .fin (sgn 32 x < 0) (sgn 32 x).natAbs 0 else ofF32 x

/-- What a store writes: `(element, code)` in lane order, `(scale address, code)`, the flags and the NaNs lost. -/
structure Stored where
  codes  : List (Int × Nat)
  scales : List (Nat × Nat)
  flags  : Nat
  lost   : Nat

/-- Unscaled elements converted; an inactive lane is +0 in the target format, whose code is 0 (R150). INT32 lanes into a floating-point
format are free codes: R151 states only INT8 and INT4 (log entry 7). -/
def storePlain (v : VL) (free : Nat) (xs : List (Int × Option Nat)) : Stored :=
  let rnd : Rnd := if v.rtz then .rtz else .rne
  let rs := xs.mapIdx (fun i x =>
    match x.2 with
    | none => (x.1, 0, 0)
    | some y =>
      if v.int && !isInt (vlElem v) then (x.1, Config.freeNat free i % 2 ^ vlBits v, 0)
      else
        let r := convElem (vlElem v) rnd v.ieee (storeVal v y)
        (x.1, r.1, r.2))
  { codes := rs.map (fun x => (x.1, x.2.1)), scales := [], flags := rs.foldl (fun n x => n ||| x.2.2) 0,
    lost := (rs.filter (fun x => bitB x.2.2 2)).length }

/-- Scaled elements converted block by block, each block of the lanes stored (R53, R151). -/
def storeScaled (v : VL) (s : State) (xs : List (Int × Option Nat)) : Stored :=
  let rnd : Rnd := if v.rtz then .rtz else .rne
  let at' := fun (k : Int) => vlScaleAt v s k
  let blocks := (xs.map (fun x => at' x.1)).eraseDups
  let rs := blocks.map (fun b =>
    let mem := xs.filter (fun x => at' x.1 == b)
    (b, mem.map (·.1), convBlock (vlSf v) (vlElem v) rnd v.ieee (mem.map (fun x => x.2.elim (.fin false 0 0) (storeVal v)))))
  { codes := rs.flatMap (fun x => x.2.1.zip x.2.2.2.1), scales := rs.map (fun x => (x.1, x.2.2.1)),
    flags := rs.foldl (fun n x => n ||| x.2.2.2.2) 0, lost := 0 }

/-- What ST and STS write: the active lanes, and +0 in inactive lanes under ZM where they may (R149, R150, R151). -/
def vlStored (gather : Bool) (v : VL) (c : Cmd) (regs : Nat) (s : State) : Stored :=
  let act := s.mreg v.core v.mask
  let lane := s.vreg v.core v.vr
  let a := s.accOf c v.core false
  let mayZero := fun (k : Nat × Int) =>
    let e := elemAt (vlBase v s) (vlBits v) k.2
    v.zm && (gather || vlBase v s % 64 == 0) && vlOnBlock v && vlLaneOk v s gather regs k.2 &&
      (!v.glob || ((s.checkRange a e.1 (elemLen e.2 (vlBits v)) true).isNone &&
        (vlSf v == 0 || (s.checkRange a (vlScaleAt v s k.2) 1 true).isNone)))
  let xs := ((vlLanes gather v s).filter (fun k => act.getLsbD k.1 || mayZero k)).map (fun k =>
    (k.2, if act.getLsbD k.1 then some (lane[k.1]?.getD 0).toNat else none))
  if vlSf v = 0 then storePlain v s.free xs else storeScaled v s xs

/-- The bits that a store writes, by address: elements, then scales (R149, R151). -/
def Stored.writes (x : Stored) (v : VL) (s : State) : Writes :=
  let t : Writes := x.codes.foldl (fun t x =>
    let e := elemAt (vlBase v s) (vlBits v) x.1
    addElem t e.1 e.2 (vlBits v) x.2) []
  x.scales.foldl (fun t x => addElem t x.1 0 8 x.2) t

/-- ST and STS (R144, R145, R149, R150, R151). -/
def vecStore (gather : Bool) (v : VL) (c : Cmd) (r : VRun) (s : State) : VOut :=
  let regs := num (s.runImage c r) 8 1
  if !vlMay gather v regs s then .stop s 0x0320
  else if !ovfOk (vlElem v) v.ieee then .stop s 0x0114
  else
    let st := vlStored gather v c regs s
    match (s.markStore c).vecWrite (s.accOf c v.core false) v.core v.glob (st.writes v s) with
    | (s1, some e) => .fail s1 e
    | (s1, none) =>
      let s2 := ((s1.addConv v.core st.flags).noteConv v.core st.flags st.lost).draw
      if c.strictNan && bitB st.flags 2 then .stop s2 0x0111 else .next s2

/-- ST (R145, R151). -/
def execVSt (v : VL) (s : State) : Answer := vecStep v.core v.chk (vlFits v) (vlWord 0x61 v) (vecStore false v) s

/-- STS (R145, R149, R151). -/
def execVSts (v : VL) (s : State) : Answer := vecStep v.core v.chk (vlFits v) (vlWord 0x63 v) (vecStore true v) s

/-! ## Scalar loads and stores, and rotation -/

/-- The local address of SLD and SST (R145). -/
def vsAddr (v : VS) (s : State) : Nat := (s.sreg v.core v.sa + v.imm.signExtend 64).toNat

/-- SLD (R145): a 64-bit local load. -/
def execVSld (v : VS) (s : State) : Answer :=
  vecStep v.core v.chk (vsFits v) (vsWord 0x73 v) (fun c r s =>
    if vsAddr v s % 8 ≠ 0 ∨ !regionOk (num (s.runImage c r) 8 1) false none (vsAddr v s) 8 then .stop s 0x0320
    else match s.readSram (s.accOf c v.core false) v.core (vsAddr v s) 8 with
      | .error e => .fail s e
      | .ok b => .next ((s.fixLocal v.core [(vsAddr v s, 8)]).setSreg v.core v.sd (BitVec.ofNat 64 (leNat b)))) s

/-- SST (R145): a 64-bit local store. -/
def execVSst (v : VS) (s : State) : Answer :=
  vecStep v.core v.chk (vsFits v) (vsWord 0x74 v) (fun c r s =>
    if vsAddr v s % 8 ≠ 0 ∨ !regionOk (num (s.runImage c r) 8 1) false none (vsAddr v s) 8 then .stop s 0x0320
    else match (s.markStore c).writeSram (s.accOf c v.core false) v.core (vsAddr v s) (leBytes 8 (s.sreg v.core v.sb).toNat) with
      | (s1, some e) => .fail s1 e
      | (s1, none) => .next s1) s

/-- The sign mask of a ROT, read through the cache; address 0 means none (R64, R158). -/
def State.rotMask (s : State) (c : Cmd) (v : VS) (regs n : Nat) : State × Except VErr (Nat → Bool) :=
  let m := (s.sreg v.core v.sd).toNat
  if m = 0 then (s, .ok (fun _ => false))
  else if !bitB regs 6 then (s, .error (.status 0x0320))
  else match s.vecRead (s.accOf c v.core false) v.core true [(m, n / 8)] with
    | (s1, .error e) => (s1, .error e)
    | (s1, .ok bs) => (s1, .ok (fun i => bitB ((bs.flatten)[i / 8]?.getD 0).toNat (i % 8)))

/-- The arithmetic flags of a rotation, run by run (R161): INVALID where a run without a NaN gives one, OVERFLOW where a run of finite
elements gives an infinity. -/
def rotFlags (n : Nat) (xs out : List Nat) : Nat :=
  ((chop n xs.length xs).zip (chop n out.length out)).foldl (fun m x =>
    x.2.foldl (fun m y => m ||| arithFlags x.1 y) m) 0

/-- ROT (R158): S[SB] FP32 elements at local S[SA] rotated in place in runs of 2^IMM32[3:0]. -/
def execVRot (v : VS) (s : State) : Answer :=
  vecStep v.core v.chk (vsFits v) (vsWord 0x68 v) (fun c r s =>
    let regs := num (s.runImage c r) 8 1
    let base := (s.sreg v.core v.sa).toNat
    let n := (s.sreg v.core v.sb).toNat
    let ln := v.imm.toNat % 16
    let a := s.accOf c v.core false
    if base % 4 ≠ 0 ∨ (n ≠ 0 ∧ !regionOk regs false none base (4 * n)) then .stop s 0x0320
    else if n % 2 ^ ln ≠ 0 then .stop s 0x0110
    else match s.rotMask c v regs (2 ^ ln) with
      | (s1, .error e) => e.out s1
      | (s1, .ok mask) =>
        match s1.readSram a v.core base (4 * n) with
        | .error e => .fail s1 e
        | .ok b =>
          let xs := unpack 32 n b
          let out := (rotateRow ln mask (xs.map ofF32)).map (convElem 0 .rne true)
          let fl := out.foldl (fun m x => m ||| x.2) 0
          let lost := (out.filter (fun x => bitB x.2 2)).length
          match ((s1.fixLocal v.core [(base, 4 * n)]).markStore c).writeSram a v.core base (pack 32 (out.map (·.1))) with
          | (s2, some e) => .fail s2 e
          | (s2, none) =>
            let s3 := ((s2.addArith v.core (rotFlags (2 ^ ln) xs (out.map (·.1)))).addConv v.core fl).noteConv v.core fl lost
            if c.strictNan && bitB fl 2 then .stop s3 0x0111 else .next s3) s

end Sys2Proof.Machine
end

