-- ==== Sys2Proof/Machine/Vector.lean ====
section
/-!
DEFINITION. The vector engine's register instructions (R145 to R150): arithmetic, comparison, logic, conversion, special functions,
reductions, permutation, masks, and the scalar unit with its branch and END.
-/
namespace Sys2Proof.Machine

/-! ## Arithmetic -/

/-- ADD (R145, R146). -/
def execVAdd (v : VA) (s : State) : Answer :=
  vecA 0x01 true v (vecLanes v (if v.int then int2 (· + ·) else fp2 fAdd)) s

/-- SUB (R145, R146). -/
def execVSub (v : VA) (s : State) : Answer :=
  vecA 0x02 true v (vecLanes v (if v.int then int2 iSub else fp2 fSub)) s

/-- MUL (R145, R146). -/
def execVMul (v : VA) (s : State) : Answer :=
  vecA 0x03 true v (vecLanes v (if v.int then int2 (· * ·) else fp2 fMul)) s

/-- FMA: a × b + c with one rounding (R145, R146). -/
def execVFma (v : VA) (s : State) : Answer :=
  vecA 0x04 true v (vecLanes v (fun x =>
    if v.int then ((x.1 * x.2.1 + x.2.2) % 2 ^ 32, 0)
    else
      let r := fFma x.1 x.2.1 x.2.2
      (r, arithFlags [x.1, x.2.1, x.2.2] r))) s

/-- MIN (R145, R146): signed in INT32. -/
def execVMin (v : VA) (s : State) : Answer :=
  vecA 0x05 true v (vecLanes v (if v.int then int2 iMin else fun x => (fMin x.1 x.2.1, 0))) s

/-- MAX (R145, R146): signed in INT32. -/
def execVMax (v : VA) (s : State) : Answer :=
  vecA 0x06 true v (vecLanes v (if v.int then int2 iMax else fun x => (fMax x.1 x.2.1, 0))) s

/-! ## Comparison and selection -/

/-- CMPEQ (R145, R146): false where an operand is NaN. -/
def execVCmpeq (v : VA) (s : State) : Answer :=
  vecA 0x08 false v (vecCompare v (fun a b => if v.int then a == b else (ofF32 a).eqv (ofF32 b))) s

/-- CMPLT (R145, R146): false where an operand is NaN. -/
def execVCmplt (v : VA) (s : State) : Answer :=
  vecA 0x09 false v (vecCompare v (fun a b => if v.int then decide (sgn 32 a < sgn 32 b) else (ofF32 a).lt (ofF32 b))) s

/-- CMPLE (R145, R146): false where an operand is NaN. -/
def execVCmple (v : VA) (s : State) : Answer :=
  vecA 0x0A false v (vecCompare v (fun a b =>
    if v.int then decide (sgn 32 a ≤ sgn 32 b) else (ofF32 a).lt (ofF32 b) || (ofF32 a).eqv (ofF32 b))) s

/-- CMPUN (R145): a or b is NaN. -/
def execVCmpun (v : VA) (s : State) : Answer := vecA 0x0B false v (vecCompare v (fun a b => isNan32 a || isNan32 b)) s

/-- SEL (R145, R150): the mask selects a or b in every lane. -/
def execVSel (v : VA) (s : State) : Answer :=
  vecA 0x0C false v (fun s =>
    let sel := s.mreg v.core v.mask
    s.setVreg v.core v.vd ((vaArgs v s).mapIdx (fun i x =>
      BitVec.ofNat 32 (fMove v.int (if sel.getLsbD i then x.1 else x.2.1))))) s

/-! ## Logic and shifts -/

/-- AND (R145). -/
def execVAnd (v : VA) (s : State) : Answer := vecA 0x10 true v (vecLanes v (int2 (fun a b => a &&& b))) s

/-- OR (R145). -/
def execVOr (v : VA) (s : State) : Answer := vecA 0x11 true v (vecLanes v (int2 (fun a b => a ||| b))) s

/-- XOR (R145). -/
def execVXor (v : VA) (s : State) : Answer := vecA 0x12 true v (vecLanes v (int2 (fun a b => a ^^^ b))) s

/-- SHL (R145). -/
def execVShl (v : VA) (s : State) : Answer := vecA 0x13 true v (vecLanes v (int2 (fun a b => a * 2 ^ (b % 32)))) s

/-- SHR (R145). -/
def execVShr (v : VA) (s : State) : Answer := vecA 0x14 true v (vecLanes v (int2 (fun a b => a / 2 ^ (b % 32)))) s

/-- SRA (R145). -/
def execVSra (v : VA) (s : State) : Answer := vecA 0x15 true v (vecLanes v (int2 (fun a b => unsgn 32 (sgn 32 a / (2 ^ (b % 32) : Nat))))) s

/-! ## Conversion and special functions -/

/-- CVTIF (R145): INT32 to FP32, RNE. -/
def execVCvtif (v : VA) (s : State) : Answer :=
  vecA 0x18 false v (vecLanes v (fun x => (toF32 (.fin (sgn 32 x.1 < 0) (sgn 32 x.1).natAbs 0), 0))) s

/-- CVTFI (R145, R146): VC[0] is the rounding mode. -/
def execVCvtfi (v : VA) (s : State) : Answer :=
  vecA 0x19 false v (vecLanes v (fun x => (cvtFI (if v.vc % 2 = 0 then .rne else .rtz) x.1, 0))) s

/-- EXP2 (R145, R147). -/
def execVExp2 (v : VA) (s : State) : Answer := vecA 0x20 false v (vecLanes v (sfuLane 0)) s

/-- LOG2 (R145, R147). -/
def execVLog2 (v : VA) (s : State) : Answer := vecA 0x21 false v (vecLanes v (sfuLane 1)) s

/-- RCP (R145, R147). -/
def execVRcp (v : VA) (s : State) : Answer := vecA 0x22 false v (vecLanes v (sfuLane 2)) s

/-- RSQRT (R145, R147). -/
def execVRsqrt (v : VA) (s : State) : Answer := vecA 0x23 false v (vecLanes v (sfuLane 3)) s

/-! ## Reductions and scans -/

/-- REDSUM (R148): nine levels of pairs. -/
def execVRedsum (v : VA) (s : State) : Answer :=
  vecA 0x28 false v (fun s =>
    let r := treeSum v.int 9 (laneOpts (s.mreg v.core v.mask) (s.vreg v.core v.va)) 0
    vecSplat v (fMove v.int (r.1.getD 0)) r.2 s) s

/-- REDSUMO (R148): ascending lanes. -/
def execVRedsumo (v : VA) (s : State) : Answer :=
  vecA 0x29 false v (fun s =>
    let r := runSums v.int none (activeVals (s.mreg v.core v.mask) (s.vreg v.core v.va))
    vecSplat v (fMove v.int (r.1.getLast?.getD 0)) r.2 s) s

/-- REDMAX (R148). With no active lane it writes an infinity, which INT32 does not have: a free value there (log entry 7). -/
def execVRedmax (v : VA) (s : State) : Answer :=
  vecA 0x2A false v (fun s =>
    match activeVals (s.mreg v.core v.mask) (s.vreg v.core v.va) with
    | [] => if v.int then (vecSplat v (Config.freeWord s.free 0).toNat 0 s).draw else vecSplat v 0xFF800000 0 s
    | x :: xs => vecSplat v (if v.int then xs.foldl iMax x else fMove false (xs.foldl fMax x)) 0 s) s

/-- REDMIN (R148). With no active lane it writes an infinity, which INT32 does not have: a free value there (log entry 7). -/
def execVRedmin (v : VA) (s : State) : Answer :=
  vecA 0x2B false v (fun s =>
    match activeVals (s.mreg v.core v.mask) (s.vreg v.core v.va) with
    | [] => if v.int then (vecSplat v (Config.freeWord s.free 0).toNat 0 s).draw else vecSplat v 0x7F800000 0 s
    | x :: xs => vecSplat v (if v.int then xs.foldl iMin x else fMove false (xs.foldl fMin x)) 0 s) s

/-- SCAN (R148): inclusive prefix sums over the active lanes. -/
def execVScan (v : VA) (s : State) : Answer :=
  vecA 0x2C false v (fun s =>
    let act := s.mreg v.core v.mask
    let old := s.vreg v.core v.vd
    let r := runSums v.int none (activeVals act (s.vreg v.core v.va))
    (s.addArith v.core r.2).setVreg v.core v.vd
      (laneMerge act v.zm old (scatterBack act 0 old (r.1.map (fMove v.int))))) s

/-! ## Data movement -/

/-- PERM (R145): d := a[b mod 512]. -/
def execVPerm (v : VA) (s : State) : Answer :=
  vecA 0x2D false v (fun s =>
    let a := s.vreg v.core v.va
    vecLanes v (fun x => (fMove v.int (a[x.2.1 % 512]?.getD 0).toNat, 0)) s) s

/-- IDX (R145): the lane number. -/
def execVIdx (v : VA) (s : State) : Answer :=
  vecA 0x2E false v (fun s =>
    s.setVreg v.core v.vd (laneMerge (s.mreg v.core v.mask) v.zm (s.vreg v.core v.vd)
      ((List.range 512).map (BitVec.ofNat 32)))) s

/-- BCAST (R145): the low 32 bits of a scalar. -/
def execVBcast (v : VA) (s : State) : Answer :=
  vecA 0x30 false v (fun s =>
    let x := fMove v.int ((s.sreg v.core v.va).toNat % 2 ^ 32)
    vecLanes v (fun _ => (x, 0)) s) s

/-- EXTRACT (R145): a lane into a scalar. It has only a format-B form. -/
def execVExtract (v : VA) (s : State) : Answer :=
  match v.imm with
  | none => .next s
  | some i => vecA 0x31 true v (fun s =>
      s.setSreg v.core v.vd (BitVec.ofNat 64 ((s.vreg v.core v.va)[i.toNat]?.getD 0).toNat)) s

/-! ## Masks -/

/-- MAND (R145). -/
def execVMand (v : VA) (s : State) : Answer := vecA 0x34 false v (vecMask v (fun a b => a &&& b)) s

/-- MOR (R145). -/
def execVMor (v : VA) (s : State) : Answer := vecA 0x35 false v (vecMask v (fun a b => a ||| b)) s

/-- MNOT (R145). -/
def execVMnot (v : VA) (s : State) : Answer := vecA 0x36 false v (vecMask v (fun a _ => ~~~a)) s

/-- MPOP (R145): set bits of M[VA] AND M[MASK]. -/
def execVMpop (v : VA) (s : State) : Answer :=
  vecA 0x37 false v (fun s =>
    let x := s.mreg v.core (v.va % 8) &&& s.mreg v.core v.mask
    s.setSreg v.core v.vd (BitVec.ofNat 64 ((List.range 512).filter (fun i => x.getLsbD i)).length)) s

/-! ## The scalar unit -/

/-- IMM32, sign-extended to 64 bits. -/
def immS (v : VS) : BitVec 64 := v.imm.signExtend 64

/-- SADD (R145). -/
def execVSadd (v : VS) (s : State) : Answer :=
  vecS 0x70 v (fun s => .next (s.setSreg v.core v.sd (s.sreg v.core v.sa + s.sreg v.core v.sb + immS v))) s

/-- SSUB (R145). -/
def execVSsub (v : VS) (s : State) : Answer :=
  vecS 0x71 v (fun s => .next (s.setSreg v.core v.sd (s.sreg v.core v.sa - s.sreg v.core v.sb))) s

/-- SMUL (R145). -/
def execVSmul (v : VS) (s : State) : Answer :=
  vecS 0x72 v (fun s => .next (s.setSreg v.core v.sd (s.sreg v.core v.sa * s.sreg v.core v.sb))) s

/-- SLI (R145). -/
def execVSli (v : VS) (s : State) : Answer :=
  vecS 0x75 v (fun s => .next (s.setSreg v.core v.sd (immS v))) s

/-- The branch conditions (R145). -/
def branchTaken (cond : Nat) (a b : BitVec 64) : Bool :=
  match cond with
  | 0 => true
  | 1 => a == b
  | 2 => a != b
  | 3 => decide (a.toInt < b.toInt)
  | 4 => decide (b.toInt ≤ a.toInt)
  | 5 => decide (a.toNat < b.toNat)
  | 6 => decide (b.toNat ≤ a.toNat)
  | _ => false

/-- BR (R145): PC := PC + IMM32 if the condition holds. -/
def execVBr (v : VS) (s : State) : Answer :=
  vecStep v.core v.chk (vsFits v) (vsWord 0x78 v) (fun _ r s =>
    if branchTaken v.cond (s.sreg v.core v.sa) (s.sreg v.core v.sb) then .jump s ((r.pc : Int) + v.imm.toInt).toNat
    else .next s) s

/-- END (R145, R159): the end of the program on this core. -/
def execVEnd (v : VS) (s : State) : Answer := vecS 0x7F v (fun s => .ended s) s

/-- INSTRUCTION_LIMIT_EXCEEDED (R160): a core whose next instruction would exceed the limit stops the run. -/
def execInstructionLimitExceeded (core : Nat) (s : State) : Answer :=
  if 24 ≤ core then .next s
  else match (s.core core).run with
    | none => .next s
    | some r =>
      match s.cmd? r.cmd with
      | none => .next s
      | some c => when (s.canRun c && c.insnLimit ≤ r.count) s (s.stopRun c 0x011A r.pc)

end Sys2Proof.Machine
end

