-- ==== Sys2Proof/Machine/Dispatch.lean ====
section
/-!
DEFINITION. The one dispatch: each command to its own meaning.
-/
namespace Sys2Proof.Machine

/-- The effect of one command on everything but the queue. -/
def exec (i : Instr) (s : State) : Host.Outcome State Fault Refusal :=
  match i with
  | .submissionDoorbell fn off size val => Sys2Proof.Machine.execSubmissionDoorbell fn off size val s
  | .completionHeadDoorbell fn cq val => Sys2Proof.Machine.execCompletionHeadDoorbell fn cq val s
  | .schedulerVisit ctxLost parity => Sys2Proof.Machine.execSchedulerVisit ctxLost parity s
  | .ringFetchCompletion queue ok1 ok2 slots => Sys2Proof.Machine.execRingFetchCompletion queue ok1 ok2 slots s
  | .hostReadCompletion fn tag ok data => Sys2Proof.Machine.execHostReadCompletion fn tag ok data s
  | .commandDispatch queue => Sys2Proof.Machine.execCommandDispatch queue s
  | .commandStart cmd parity => Sys2Proof.Machine.execCommandStart cmd parity s
  | .waitTimeout cmd t => Sys2Proof.Machine.execWaitTimeout cmd t s
  | .cqModTimeExpiry cq t => Sys2Proof.Machine.execCqModTimeExpiry cq t s
  | .nop cmd => Sys2Proof.Machine.execNop cmd s
  | .fenceWait cmd => Sys2Proof.Machine.execFenceWait cmd s
  | .fenceSignal cmd => Sys2Proof.Machine.execFenceSignal cmd s
  | .timestamp cmd => Sys2Proof.Machine.execTimestamp cmd s
  | .stepBegin cmd => Sys2Proof.Machine.execStepBegin cmd s
  | .stepEnd cmd => Sys2Proof.Machine.execStepEnd cmd s
  | .stepCommit part => Sys2Proof.Machine.execStepCommit part s
  | .stepEndWaitTimeout part t => Sys2Proof.Machine.execStepEndWaitTimeout part t s
  | .dmaCopy cmd chk => Sys2Proof.Machine.execDmaCopy cmd chk s
  | .dmaConvert cmd chk => Sys2Proof.Machine.execDmaConvert cmd chk s
  | .memFill cmd chk => Sys2Proof.Machine.execMemFill cmd chk s
  | .cacheWriteback cmd => Sys2Proof.Machine.execCacheWriteback cmd s
  | .cacheInvalidate cmd => Sys2Proof.Machine.execCacheInvalidate cmd s
  | .fabricMatmul cmd => Sys2Proof.Machine.execFabricMatmul cmd s
  | .groupedMatmul cmd => Sys2Proof.Machine.execGroupedMatmul cmd s
  | .tileRequest core chunk parity => Sys2Proof.Machine.execTileRequest core chunk parity s
  | .tileSteal core victim chunk => Sys2Proof.Machine.execTileSteal core victim chunk s
  | .passCheck core faults => Sys2Proof.Machine.execPassCheck core faults s
  | .passSplit core slots => Sys2Proof.Machine.execPassSplit core slots s
  | .arrayFenceTakesEffect core => Sys2Proof.Machine.execArrayFenceTakesEffect core s
  | .decodeSlotFill core table => Sys2Proof.Machine.execDecodeSlotFill core table s
  | .vectorRun cmd => Sys2Proof.Machine.execVectorRun cmd s
  | .rotate cmd chk => Sys2Proof.Machine.execRotate cmd chk s
  | .moeRoute cmd chk => Sys2Proof.Machine.execMoeRoute cmd chk s
  | .attendPrefill cmd faults => Sys2Proof.Machine.execAttendPrefill cmd faults s
  | .attendDecode cmd => Sys2Proof.Machine.execAttendDecode cmd s
  | .attentionChunkDone core chk refetch => Sys2Proof.Machine.execAttentionChunkDone core chk refetch s
  | .kvAppend cmd chk => Sys2Proof.Machine.execKvAppend cmd chk s
  | .compress cmd chk => Sys2Proof.Machine.execCompress cmd chk s
  | .tableLoad cmd => Sys2Proof.Machine.execTableLoad cmd s
  | .tableLoadApply cmd => Sys2Proof.Machine.execTableLoadApply cmd s
  | .seqCreate cmd => Sys2Proof.Machine.execSeqCreate cmd s
  | .seqFork cmd => Sys2Proof.Machine.execSeqFork cmd s
  | .seqFree cmd => Sys2Proof.Machine.execSeqFree cmd s
  | .kvReserve cmd => Sys2Proof.Machine.execKvReserve cmd s
  | .prefixLookup cmd => Sys2Proof.Machine.execPrefixLookup cmd s
  | .prefixInsert cmd => Sys2Proof.Machine.execPrefixInsert cmd s
  | .msgSend cmd => Sys2Proof.Machine.execMsgSend cmd s
  | .recvPostBuffer cmd => Sys2Proof.Machine.execRecvPostBuffer cmd s
  | .recvPostRegion cmd => Sys2Proof.Machine.execRecvPostRegion cmd s
  | .recvPostFences cmd => Sys2Proof.Machine.execRecvPostFences cmd s
  | .recvPostRemove cmd => Sys2Proof.Machine.execRecvPostRemove cmd s
  | .allReduce cmd => Sys2Proof.Machine.execAllReduce cmd s
  | .allGather cmd => Sys2Proof.Machine.execAllGather cmd s
  | .reduceScatter cmd => Sys2Proof.Machine.execReduceScatter cmd s
  | .allToAll cmd => Sys2Proof.Machine.execAllToAll cmd s
  | .jobOpen cmd => Sys2Proof.Machine.execJobOpen cmd s
  | .jobClose cmd => Sys2Proof.Machine.execJobClose cmd s
  | .queueCreate cmd => Sys2Proof.Machine.execQueueCreate cmd s
  | .queueResume cmd => Sys2Proof.Machine.execQueueResume cmd s
  | .queueDestroy cmd => Sys2Proof.Machine.execQueueDestroy cmd s
  | .queueDestroyDone cmd => Sys2Proof.Machine.execQueueDestroyDone cmd s
  | .configure cmd rates => Sys2Proof.Machine.execConfigure cmd rates s
  | .poolDefine cmd => Sys2Proof.Machine.execPoolDefine cmd s
  | .poolRemove cmd => Sys2Proof.Machine.execPoolRemove cmd s
  | .partitionRelease cmd => Sys2Proof.Machine.execPartitionRelease cmd s
  | .drainOverrun part t => Sys2Proof.Machine.execDrainOverrun part t s
  | .drainEnd part t => Sys2Proof.Machine.execDrainEnd part t s
  | .releaseScrubDone part t => Sys2Proof.Machine.execReleaseScrubDone part t s
  | .mmuMap cmd => Sys2Proof.Machine.execMmuMap cmd s
  | .mmuUnmap cmd => Sys2Proof.Machine.execMmuUnmap cmd s
  | .programLoad cmd => Sys2Proof.Machine.execProgramLoad cmd s
  | .weightsLoadSealed cmd => Sys2Proof.Machine.execWeightsLoadSealed cmd s
  | .keyImport cmd => Sys2Proof.Machine.execKeyImport cmd s
  | .counterConfig cmd => Sys2Proof.Machine.execCounterConfig cmd s
  | .traceConfig cmd => Sys2Proof.Machine.execTraceConfig cmd s
  | .tensorWatch cmd => Sys2Proof.Machine.execTensorWatch cmd s
  | .watchRecord part slot => Sys2Proof.Machine.execWatchRecord part slot s
  | .snapshot cmd => Sys2Proof.Machine.execSnapshot cmd s
  | .contextSave cmd => Sys2Proof.Machine.execContextSave cmd s
  | .contextRestore cmd => Sys2Proof.Machine.execContextRestore cmd s
  | .contextHoldReached part => Sys2Proof.Machine.execContextHoldReached part s
  | .resetCompute cmd => Sys2Proof.Machine.execResetCompute cmd s
  | .computeReset part kvDone => Sys2Proof.Machine.execComputeReset part kvDone s
  | .vAdd v => Sys2Proof.Machine.execVAdd v s
  | .vSub v => Sys2Proof.Machine.execVSub v s
  | .vMul v => Sys2Proof.Machine.execVMul v s
  | .vFma v => Sys2Proof.Machine.execVFma v s
  | .vMin v => Sys2Proof.Machine.execVMin v s
  | .vMax v => Sys2Proof.Machine.execVMax v s
  | .vCmpeq v => Sys2Proof.Machine.execVCmpeq v s
  | .vCmplt v => Sys2Proof.Machine.execVCmplt v s
  | .vCmple v => Sys2Proof.Machine.execVCmple v s
  | .vCmpun v => Sys2Proof.Machine.execVCmpun v s
  | .vSel v => Sys2Proof.Machine.execVSel v s
  | .vAnd v => Sys2Proof.Machine.execVAnd v s
  | .vOr v => Sys2Proof.Machine.execVOr v s
  | .vXor v => Sys2Proof.Machine.execVXor v s
  | .vShl v => Sys2Proof.Machine.execVShl v s
  | .vShr v => Sys2Proof.Machine.execVShr v s
  | .vSra v => Sys2Proof.Machine.execVSra v s
  | .vCvtif v => Sys2Proof.Machine.execVCvtif v s
  | .vCvtfi v => Sys2Proof.Machine.execVCvtfi v s
  | .vExp2 v => Sys2Proof.Machine.execVExp2 v s
  | .vLog2 v => Sys2Proof.Machine.execVLog2 v s
  | .vRcp v => Sys2Proof.Machine.execVRcp v s
  | .vRsqrt v => Sys2Proof.Machine.execVRsqrt v s
  | .vRedsum v => Sys2Proof.Machine.execVRedsum v s
  | .vRedsumo v => Sys2Proof.Machine.execVRedsumo v s
  | .vRedmax v => Sys2Proof.Machine.execVRedmax v s
  | .vRedmin v => Sys2Proof.Machine.execVRedmin v s
  | .vScan v => Sys2Proof.Machine.execVScan v s
  | .vPerm v => Sys2Proof.Machine.execVPerm v s
  | .vIdx v => Sys2Proof.Machine.execVIdx v s
  | .vBcast v => Sys2Proof.Machine.execVBcast v s
  | .vExtract v => Sys2Proof.Machine.execVExtract v s
  | .vMand v => Sys2Proof.Machine.execVMand v s
  | .vMor v => Sys2Proof.Machine.execVMor v s
  | .vMnot v => Sys2Proof.Machine.execVMnot v s
  | .vMpop v => Sys2Proof.Machine.execVMpop v s
  | .vLd v => Sys2Proof.Machine.execVLd v s
  | .vSt v => Sys2Proof.Machine.execVSt v s
  | .vLdg v => Sys2Proof.Machine.execVLdg v s
  | .vSts v => Sys2Proof.Machine.execVSts v s
  | .vRot v => Sys2Proof.Machine.execVRot v s
  | .vSadd v => Sys2Proof.Machine.execVSadd v s
  | .vSsub v => Sys2Proof.Machine.execVSsub v s
  | .vSmul v => Sys2Proof.Machine.execVSmul v s
  | .vSld v => Sys2Proof.Machine.execVSld v s
  | .vSst v => Sys2Proof.Machine.execVSst v s
  | .vSli v => Sys2Proof.Machine.execVSli v s
  | .vBr v => Sys2Proof.Machine.execVBr v s
  | .vEnd v => Sys2Proof.Machine.execVEnd v s
  | .instructionLimitExceeded core => Sys2Proof.Machine.execInstructionLimitExceeded core s
  | .unitWatchdogExpiry core u t => Sys2Proof.Machine.execUnitWatchdogExpiry core u t s
  | .patrolRead stack off seen => Sys2Proof.Machine.execPatrolRead stack off seen s
  | .stackRetrain stack => Sys2Proof.Machine.execStackRetrain stack s
  | .arrayFenceSet fn core val => Sys2Proof.Machine.execArrayFenceSet fn core val s
  | .unitReturnToService fn core u => Sys2Proof.Machine.execUnitReturnToService fn core u s
  | .selfTestDone core u passed runs => Sys2Proof.Machine.execSelfTestDone core u passed runs s
  | .fencedArraySelfTest core array runs => Sys2Proof.Machine.execFencedArraySelfTest core array runs s
  | .unitRetire fn core u => Sys2Proof.Machine.execUnitRetire fn core u s
  | .wingbeatArm => Sys2Proof.Machine.execWingbeatArm s
  | .wingbeatBeat => Sys2Proof.Machine.execWingbeatBeat s
  | .wingbeatSample t => Sys2Proof.Machine.execWingbeatSample t s
  | .firmwareRestart fn val => Sys2Proof.Machine.execFirmwareRestart fn val s
  | .rasIrqWrite fn val => Sys2Proof.Machine.execRasIrqWrite fn val s
  | .rasWindowDataRead fn off size => Sys2Proof.Machine.execRasWindowDataRead fn off size s
  | .rxWrite port f => Sys2Proof.Machine.execRxWrite port f s
  | .rxSend port f => Sys2Proof.Machine.execRxSend port f s
  | .rxAtomicAdd port f => Sys2Proof.Machine.execRxAtomicAdd port f s
  | .rxAbort port f => Sys2Proof.Machine.execRxAbort port f s
  | .rxCancel port f => Sys2Proof.Machine.execRxCancel port f s
  | .rxAck port f => Sys2Proof.Machine.execRxAck port f s
  | .rxNak port f => Sys2Proof.Machine.execRxNak port f s
  | .rxRnr port f => Sys2Proof.Machine.execRxRnr port f s
  | .rxRefuse port f => Sys2Proof.Machine.execRxRefuse port f s
  | .rxKeyx port nonce peerPort tag => Sys2Proof.Machine.execRxKeyx port nonce peerPort tag s
  | .rxHello port owned epoch peerPort credits tag => Sys2Proof.Machine.execRxHello port owned epoch peerPort credits tag s
  | .rxKeepalive port => Sys2Proof.Machine.execRxKeepalive port s
  | .otherFrameDrop port unprotected => Sys2Proof.Machine.execOtherFrameDrop port unprotected s
  | .segmentTransmit port => Sys2Proof.Machine.execSegmentTransmit port s
  | .retransmitTimeout port psn t => Sys2Proof.Machine.execRetransmitTimeout port psn t s
  | .rnrRetry port t => Sys2Proof.Machine.execRnrRetry port t s
  | .ackTimer port t => Sys2Proof.Machine.execAckTimer port t s
  | .keepaliveTimer port t => Sys2Proof.Machine.execKeepaliveTimer port t s
  | .helloTimer port t => Sys2Proof.Machine.execHelloTimer port t s
  | .peerSilenceTimeout port t => Sys2Proof.Machine.execPeerSilenceTimeout port t s
  | .linkGiveUp port t => Sys2Proof.Machine.execLinkGiveUp port t s
  | .rekey port => Sys2Proof.Machine.execRekey port s
  | .linkUp port fast nonce => Sys2Proof.Machine.execLinkUp port fast nonce s
  | .linkDown port refLost t => Sys2Proof.Machine.execLinkDown port refLost t s
  | .retrain fn port val => Sys2Proof.Machine.execRetrain fn port val s
  | .fundamentalReset fuseOk nonce rates => Sys2Proof.Machine.execFundamentalReset fuseOk nonce rates s
  | .warmReset low fuseOk rates => Sys2Proof.Machine.execWarmReset low fuseOk rates s
  | .hotReset fuseOk rates => Sys2Proof.Machine.execHotReset fuseOk rates s
  | .functionLevelReset fn => Sys2Proof.Machine.execFunctionLevelReset fn s
  | .powerUp fuseOk nonce rates => Sys2Proof.Machine.execPowerUp fuseOk nonce rates s
  | .powerLoss => Sys2Proof.Machine.execPowerLoss s
  | .brownOut supply => Sys2Proof.Machine.execBrownOut supply s
  | .thermtrip => Sys2Proof.Machine.execThermtrip s
  | .go fn val => Sys2Proof.Machine.execGo fn val s
  | .imageFetched readOk image cert => Sys2Proof.Machine.execImageFetched readOk image cert s
  | .debugClose fn val => Sys2Proof.Machine.execDebugClose fn val s
  | .getVersion rsp => Sys2Proof.Machine.execGetVersion rsp s
  | .getCapabilities rsp => Sys2Proof.Machine.execGetCapabilities rsp s
  | .negotiateAlgorithms rsp offered => Sys2Proof.Machine.execNegotiateAlgorithms rsp offered s
  | .getDigests rsp => Sys2Proof.Machine.execGetDigests rsp s
  | .getCertificate rsp slot off len => Sys2Proof.Machine.execGetCertificate rsp slot off len s
  | .challenge rsp slot nonce => Sys2Proof.Machine.execChallenge rsp slot nonce s
  | .getMeasurements rsp block nonce => Sys2Proof.Machine.execGetMeasurements rsp block nonce s
  | .keyExchange rsp sess => Sys2Proof.Machine.execKeyExchange rsp sess s
  | .finish rsp sess verified => Sys2Proof.Machine.execFinish rsp sess verified s
  | .keyUpdate rsp sess => Sys2Proof.Machine.execKeyUpdate rsp sess s
  | .heartbeat rsp sess => Sys2Proof.Machine.execHeartbeat rsp sess s
  | .endSession rsp sess => Sys2Proof.Machine.execEndSession rsp sess s
  | .chunkSend rsp handle seq last data => Sys2Proof.Machine.execChunkSend rsp handle seq last data s
  | .chunkGet rsp handle seq => Sys2Proof.Machine.execChunkGet rsp handle seq s
  | .vendorDefinedRequest rsp vendor code scope nonce => Sys2Proof.Machine.execVendorDefinedRequest rsp vendor code scope nonce s
  | .doeAbort fn => Sys2Proof.Machine.execDoeAbort fn s
  | .ideKm rsp sess stream keySet => Sys2Proof.Machine.execIdeKm rsp sess stream keySet s
  | .ideStreamLive fn => Sys2Proof.Machine.execIdeStreamLive fn s
  | .bar4Write off data => Sys2Proof.Machine.execBar4Write off data s
  | .bar4Read off len => Sys2Proof.Machine.execBar4Read off len s
  | .bar4WindowWrite fn val => Sys2Proof.Machine.execBar4WindowWrite fn val s
  | .ideRequiredWrite fn val => Sys2Proof.Machine.execIdeRequiredWrite fn val s
  | .adminEnable fn val => Sys2Proof.Machine.execAdminEnable fn val s
  | .adminDisable fn val => Sys2Proof.Machine.execAdminDisable fn val s
  | .timeLoRead fn off size => Sys2Proof.Machine.execTimeLoRead fn off size s
  | .counterLoRead fn off size => Sys2Proof.Machine.execCounterLoRead fn off size s
  | .counterCfgWrite fn core k val => Sys2Proof.Machine.execCounterCfgWrite fn core k val s
  | .traceIndexLoRead fn off size => Sys2Proof.Machine.execTraceIndexLoRead fn off size s
  | .fire fn part val => Sys2Proof.Machine.execFire fn part val s
  | .traceHeaderTimer part t => Sys2Proof.Machine.execTraceHeaderTimer part t s
  | .traceNullTimer part t => Sys2Proof.Machine.execTraceNullTimer part t s
  | .observationWindow part t => Sys2Proof.Machine.execObservationWindow part t s
  | .stopArm fn val => Sys2Proof.Machine.execStopArm fn val s
  | .stopCancel fn val => Sys2Proof.Machine.execStopCancel fn val s
  | .stopTimeReached t => Sys2Proof.Machine.execStopTimeReached t s
  | .stopAllHalted span frameSpan t => Sys2Proof.Machine.execStopAllHalted span frameSpan t s
  | .stopDumpDone t => Sys2Proof.Machine.execStopDumpDone t s
  | .stopResume fn val => Sys2Proof.Machine.execStopResume fn val s
  | .stopReset fn val => Sys2Proof.Machine.execStopReset fn val s
  | .stopRelease t => Sys2Proof.Machine.execStopRelease t s
  | .sensorSample x t => Sys2Proof.Machine.execSensorSample x t s
  | .throttleMaxTimeout t => Sys2Proof.Machine.execThrottleMaxTimeout t s
  | .thresholdWrite fn off val => Sys2Proof.Machine.execThresholdWrite fn off val s
  | .setEndpointId i3c dest eid => Sys2Proof.Machine.execSetEndpointId i3c dest eid s
  | .getEndpointId i3c dest => Sys2Proof.Machine.execGetEndpointId i3c dest s
  | .getMctpVersionSupport i3c dest => Sys2Proof.Machine.execGetMctpVersionSupport i3c dest s
  | .getMessageTypeSupport i3c dest => Sys2Proof.Machine.execGetMessageTypeSupport i3c dest s
  | .getEndpointUuid i3c dest => Sys2Proof.Machine.execGetEndpointUuid i3c dest s
  | .getStatus i3c dest inst len => Sys2Proof.Machine.execGetStatus i3c dest inst len s
  | .getSensors i3c dest inst len => Sys2Proof.Machine.execGetSensors i3c dest inst len s
  | .getErrors i3c dest inst len => Sys2Proof.Machine.execGetErrors i3c dest inst len s
  | .getThresholds i3c dest inst len => Sys2Proof.Machine.execGetThresholds i3c dest inst len s
  | .setThresholds i3c dest inst len therm power => Sys2Proof.Machine.execSetThresholds i3c dest inst len therm power s
  | .clearAlert i3c dest inst len mask => Sys2Proof.Machine.execClearAlert i3c dest inst len mask s
  | .dynamicAddressAssignment addr => Sys2Proof.Machine.execDynamicAddressAssignment addr s
  | .alertResponseAddressRead => Sys2Proof.Machine.execAlertResponseAddressRead s
  | .smbusTimeout => Sys2Proof.Machine.execSmbusTimeout s
  | .registerWrite fn off size val ideOk => Sys2Proof.Machine.execRegisterWrite fn off size val ideOk s
  | .hostReadCompletionTimeout fn tag => Sys2Proof.Machine.execHostReadCompletionTimeout fn tag s
  | .perstAssertion => Sys2Proof.Machine.execPerstAssertion s
  | .supplyReturn supply fuseOk nonce rates => Sys2Proof.Machine.execSupplyReturn supply fuseOk nonce rates s
  | .vfEnable numVfs => Sys2Proof.Machine.execVfEnable numVfs s
  | .msixVectorUnmask fn vector mask => Sys2Proof.Machine.execMsixVectorUnmask fn vector mask s
  | .doeDiscovery fn index => Sys2Proof.Machine.execDoeDiscovery fn index s
  | .configureDone cmd => Sys2Proof.Machine.execConfigureDone cmd s
  | .contextSwitchDone part digestOk t => Sys2Proof.Machine.execContextSwitchDone part digestOk t s
  | .contextHoldTimeout part t => Sys2Proof.Machine.execContextHoldTimeout part t s
  | .rnrWaitTimeout cmd t => Sys2Proof.Machine.execRnrWaitTimeout cmd t s
  | .stackRetrainDone stack rate => Sys2Proof.Machine.execStackRetrainDone stack rate s
  | .counterWrap core k => Sys2Proof.Machine.execCounterWrap core k s
  | .i3cDynamicAddressReset => Sys2Proof.Machine.execI3cDynamicAddressReset s
  | .inBandInterruptEnable on => Sys2Proof.Machine.execInBandInterruptEnable on s
  | .ethReferenceReturn port => Sys2Proof.Machine.execEthReferenceReturn port s

end Sys2Proof.Machine
end

