-- ==== Sys2Proof/WellFormed.lean ====
section
/-!
DEFINITION. Which commands name things that the device has: its functions, queues, cores, stacks, ports, partitions, slots,
vectors, supplies and responders (R15, R16, R20, R21, R254, R256, R259, R276, R404, R488). A command that names something else
is no event of the hardware, and `exec` leaves the state as it is (log entry 2).
-/
namespace Sys2Proof

/-- A unit of a core: its array numbers run from 0 to 3 (R16). -/
def unitOk : CoreUnit → Bool
  | .array a => a < 4
  | _ => true

/-- A vector of an MSI-X table (R280), or the whole function. -/
def vectorOk : Option Nat → Bool
  | none => true
  | some v => v < 2048

/-- An access of 1 to 8 bytes within BAR0 (R9, R10). -/
def accessOk (off size : Nat) : Bool := 0 < size && size ≤ 8 && off + size ≤ 2 ^ 26

/-- Whether a command's operands name things that the device has. -/
def Instr.wf : Instr → Bool
  | .submissionDoorbell fn off _ _ => fn < 9 && off < 2 ^ 23
  | .completionHeadDoorbell fn cq _ => fn < 9 && cq < 65536
  | .schedulerVisit _ _ => true
  | .ringFetchCompletion queue _ _ _ => queue < 2 ^ 20
  | .hostReadCompletion fn _ _ _ => fn < 9
  | .commandDispatch queue => queue < 2 ^ 20
  | .commandStart _ _ => true
  | .waitTimeout _ _ => true
  | .cqModTimeExpiry cq _ => cq < 65536
  | .nop _ => true
  | .fenceWait _ => true
  | .fenceSignal _ => true
  | .timestamp _ => true
  | .stepBegin _ => true
  | .stepEnd _ => true
  | .stepCommit part => part < 8
  | .stepEndWaitTimeout part _ => part < 8
  | .dmaCopy _ _ => true
  | .dmaConvert _ _ => true
  | .memFill _ _ => true
  | .cacheWriteback _ => true
  | .cacheInvalidate _ => true
  | .fabricMatmul _ => true
  | .groupedMatmul _ => true
  | .tileRequest core _ _ => core < 24
  | .tileSteal core victim _ => core < 24 && victim < 24
  | .passCheck core _ => core < 24
  | .passSplit core _ => core < 24
  | .arrayFenceTakesEffect core => core < 24
  | .decodeSlotFill core table => core < 24 && table < 64
  | .vectorRun _ => true
  | .rotate _ _ => true
  | .moeRoute _ _ => true
  | .attendPrefill _ _ => true
  | .attendDecode _ => true
  | .attentionChunkDone core _ _ => core < 24
  | .kvAppend _ _ => true
  | .compress _ _ => true
  | .tableLoad _ => true
  | .tableLoadApply _ => true
  | .seqCreate _ => true
  | .seqFork _ => true
  | .seqFree _ => true
  | .kvReserve _ => true
  | .prefixLookup _ => true
  | .prefixInsert _ => true
  | .msgSend _ => true
  | .recvPostBuffer _ => true
  | .recvPostRegion _ => true
  | .recvPostFences _ => true
  | .recvPostRemove _ => true
  | .allReduce _ => true
  | .allGather _ => true
  | .reduceScatter _ => true
  | .allToAll _ => true
  | .jobOpen _ => true
  | .jobClose _ => true
  | .queueCreate _ => true
  | .queueResume _ => true
  | .queueDestroy _ => true
  | .queueDestroyDone _ => true
  | .configure _ _ => true
  | .poolDefine _ => true
  | .poolRemove _ => true
  | .partitionRelease _ => true
  | .drainOverrun part _ => part < 8
  | .drainEnd part _ => part < 8
  | .releaseScrubDone part _ => part < 8
  | .mmuMap _ => true
  | .mmuUnmap _ => true
  | .programLoad _ => true
  | .weightsLoadSealed _ => true
  | .keyImport _ => true
  | .counterConfig _ => true
  | .traceConfig _ => true
  | .tensorWatch _ => true
  | .watchRecord part slot => part < 8 && slot < 8
  | .snapshot _ => true
  | .contextSave _ => true
  | .contextRestore _ => true
  | .contextHoldReached part => part < 8
  | .resetCompute _ => true
  | .computeReset part _ => part < 8
  | .vAdd v => v.core < 24
  | .vSub v => v.core < 24
  | .vMul v => v.core < 24
  | .vFma v => v.core < 24
  | .vMin v => v.core < 24
  | .vMax v => v.core < 24
  | .vCmpeq v => v.core < 24
  | .vCmplt v => v.core < 24
  | .vCmple v => v.core < 24
  | .vCmpun v => v.core < 24
  | .vSel v => v.core < 24
  | .vAnd v => v.core < 24
  | .vOr v => v.core < 24
  | .vXor v => v.core < 24
  | .vShl v => v.core < 24
  | .vShr v => v.core < 24
  | .vSra v => v.core < 24
  | .vCvtif v => v.core < 24
  | .vCvtfi v => v.core < 24
  | .vExp2 v => v.core < 24
  | .vLog2 v => v.core < 24
  | .vRcp v => v.core < 24
  | .vRsqrt v => v.core < 24
  | .vRedsum v => v.core < 24
  | .vRedsumo v => v.core < 24
  | .vRedmax v => v.core < 24
  | .vRedmin v => v.core < 24
  | .vScan v => v.core < 24
  | .vPerm v => v.core < 24
  | .vIdx v => v.core < 24
  | .vBcast v => v.core < 24
  | .vExtract v => v.core < 24
  | .vMand v => v.core < 24
  | .vMor v => v.core < 24
  | .vMnot v => v.core < 24
  | .vMpop v => v.core < 24
  | .vLd v => v.core < 24
  | .vSt v => v.core < 24
  | .vLdg v => v.core < 24
  | .vSts v => v.core < 24
  | .vRot v => v.core < 24
  | .vSadd v => v.core < 24
  | .vSsub v => v.core < 24
  | .vSmul v => v.core < 24
  | .vSld v => v.core < 24
  | .vSst v => v.core < 24
  | .vSli v => v.core < 24
  | .vBr v => v.core < 24
  | .vEnd v => v.core < 24
  | .instructionLimitExceeded core => core < 24
  | .unitWatchdogExpiry core u _ => core < 24 && unitOk u
  | .patrolRead stack off _ => stack < 8 && off < 0xC00000000
  | .stackRetrain stack => stack < 8
  | .arrayFenceSet fn core _ => fn < 9 && core < 24
  | .unitReturnToService fn core u => fn < 9 && core < 24 && unitOk u
  | .selfTestDone core u _ _ => core < 24 && unitOk u
  | .fencedArraySelfTest core array _ => core < 24 && array < 4
  | .unitRetire fn core u => fn < 9 && core < 24 && unitOk u
  | .wingbeatArm => true
  | .wingbeatBeat => true
  | .wingbeatSample _ => true
  | .firmwareRestart fn _ => fn < 9
  | .rasIrqWrite fn _ => fn < 9
  | .rasWindowDataRead fn off size => fn < 9 && accessOk off size
  | .rxWrite port _ => port < 4
  | .rxSend port _ => port < 4
  | .rxAtomicAdd port _ => port < 4
  | .rxAbort port _ => port < 4
  | .rxCancel port _ => port < 4
  | .rxAck port _ => port < 4
  | .rxNak port _ => port < 4
  | .rxRnr port _ => port < 4
  | .rxRefuse port _ => port < 4
  | .rxKeyx port _ _ _ => port < 4
  | .rxHello port _ _ peerPort _ _ => port < 4 && peerPort < 4
  | .rxKeepalive port => port < 4
  | .otherFrameDrop port _ => port < 4
  | .segmentTransmit port => port < 4
  | .retransmitTimeout port _ _ => port < 4
  | .rnrRetry port _ => port < 4
  | .ackTimer port _ => port < 4
  | .keepaliveTimer port _ => port < 4
  | .helloTimer port _ => port < 4
  | .peerSilenceTimeout port _ => port < 4
  | .linkGiveUp port _ => port < 4
  | .rekey port => port < 4
  | .linkUp port _ _ => port < 4
  | .linkDown port _ _ => port < 4
  | .retrain fn port _ => fn < 9 && port < 4
  | .fundamentalReset _ _ _ => true
  | .warmReset _ _ _ => true
  | .hotReset _ _ => true
  | .functionLevelReset fn => fn < 9
  | .powerUp _ _ _ => true
  | .powerLoss => true
  | .brownOut supply => supply < 12
  | .thermtrip => true
  | .go fn _ => fn < 9
  | .imageFetched _ _ _ => true
  | .debugClose fn _ => fn < 9
  | .getVersion rsp => rsp < 10
  | .getCapabilities rsp => rsp < 10
  | .negotiateAlgorithms rsp _ => rsp < 10
  | .getDigests rsp => rsp < 10
  | .getCertificate rsp _ _ _ => rsp < 10
  | .challenge rsp _ _ => rsp < 10
  | .getMeasurements rsp _ _ => rsp < 10
  | .keyExchange rsp _ => rsp < 10
  | .finish rsp _ _ => rsp < 10
  | .keyUpdate rsp _ => rsp < 10
  | .heartbeat rsp _ => rsp < 10
  | .endSession rsp _ => rsp < 10
  | .chunkSend rsp _ _ _ _ => rsp < 10
  | .chunkGet rsp _ _ => rsp < 10
  | .vendorDefinedRequest rsp _ _ _ _ => rsp < 10
  | .doeAbort fn => fn < 9
  | .ideKm rsp _ stream keySet => rsp < 10 && stream < 9 && keySet < 2
  | .ideStreamLive fn => fn < 9
  | .bar4Write off data => off + data.length ≤ 2 ^ 36
  | .bar4Read off len => off + len ≤ 2 ^ 36
  | .bar4WindowWrite fn _ => fn < 9
  | .ideRequiredWrite fn _ => fn < 9
  | .adminEnable fn _ => fn < 9
  | .adminDisable fn _ => fn < 9
  | .timeLoRead fn off size => fn < 9 && accessOk off size
  | .counterLoRead fn off size => fn < 9 && accessOk off size
  | .counterCfgWrite fn core k _ => fn < 9 && core < 24 && k < 16
  | .traceIndexLoRead fn off size => fn < 9 && accessOk off size
  | .fire fn part _ => fn < 9 && part < 8
  | .traceHeaderTimer part _ => part < 8
  | .traceNullTimer part _ => part < 8
  | .observationWindow part _ => part < 8
  | .stopArm fn _ => fn < 9
  | .stopCancel fn _ => fn < 9
  | .stopTimeReached _ => true
  | .stopAllHalted _ _ _ => true
  | .stopDumpDone _ => true
  | .stopResume fn _ => fn < 9
  | .stopReset fn _ => fn < 9
  | .stopRelease _ => true
  | .sensorSample _ _ => true
  | .throttleMaxTimeout _ => true
  | .thresholdWrite fn _ _ => fn < 9
  | .setEndpointId _ _ _ => true
  | .getEndpointId _ _ => true
  | .getMctpVersionSupport _ _ => true
  | .getMessageTypeSupport _ _ => true
  | .getEndpointUuid _ _ => true
  | .getStatus _ _ _ _ => true
  | .getSensors _ _ _ _ => true
  | .getErrors _ _ _ _ => true
  | .getThresholds _ _ _ _ => true
  | .setThresholds _ _ _ _ _ _ => true
  | .clearAlert _ _ _ _ _ => true
  | .dynamicAddressAssignment _ => true
  | .alertResponseAddressRead => true
  | .smbusTimeout => true
  | .registerWrite fn off size _ _ => fn < 9 && off + size ≤ 2 ^ 26
  | .hostReadCompletionTimeout fn _ => fn < 9
  | .perstAssertion => true
  | .supplyReturn supply _ _ _ => supply < 12
  | .vfEnable numVfs => numVfs ≤ 8
  | .msixVectorUnmask fn vector _ => fn < 9 && vectorOk vector
  | .doeDiscovery fn _ => fn < 9
  | .configureDone _ => true
  | .contextSwitchDone part _ _ => part < 8
  | .contextHoldTimeout part _ => part < 8
  | .rnrWaitTimeout _ _ => true
  | .stackRetrainDone stack rate => stack < 8 && rate < 4
  | .counterWrap core k => core < 24 && k < 16
  | .i3cDynamicAddressReset => true
  | .inBandInterruptEnable _ => true
  | .ethReferenceReturn port => port < 4

end Sys2Proof
end

