-- ==== Sys2Proof/Safety.lean ====
section
/-!
DEFINITION. What counts as a safe run: every waiting command names things that the device has, and memory and registers keep their
canonical form. Then the terms in which the statements name a register access, a command that may run, and what a command leaves
alone.
-/
namespace Sys2Proof.Machine

/-! ## Safe runs -/

/-- Whether every waiting command is well formed. -/
def State.queueOk (s : State) : Bool := s.pending.all Instr.wf

/-- Whether the register map and memory are in canonical form. -/
def State.canonical (s : State) : Bool := s.regs.wf regReset && s.mem.wf

/-- Whether every vector register holds 512 lanes (R141). -/
def State.lanesOk (s : State) : Bool := s.cores.all (fun k => k.2.v.all (fun r => r.2.length == 512))

/-! ## Register accesses -/

/-- A write or read of an offset by a function that reaches a register: the function exists, its view decodes the offset, and no
stop is in force (R9, R257, R433). -/
abbrev Reachable (s : State) (fn off : Nat) : Prop :=
  fn < 9 ∧ s.reaches fn = true ∧ s.stopped = false ∧ s.decodes fn off = true

/-- A responder that answers a request at once: it exists (the sideband with an endpoint ID and its clock locked), the firmware runs,
and no stop is in force (R404, R461, R463). -/
abbrev Answers (s : State) (rsp : Nat) : Prop :=
  rsp < 10 ∧ s.alive = true ∧ s.eclosed = true ∧ s.fwRuns = true ∧ s.stopped = false ∧
    (rsp = 9 → s.fld Reg.mbxLink 16 8 ≠ 0 ∧ s.fld Reg.clkStatus 4 1 = 1) ∧ (rsp ≠ 9 → s.fnExists rsp = true)

/-- Whether a register of a table has no row of its own in the command table, so that a write of it is plain (R10). -/
def plainReg (off : Nat) : Bool :=
  (regRow? off).isSome &&
    !([Reg.stopCtl, Reg.adminCtl, Reg.bar4, Reg.ideRequired, Reg.rasIrq, 0x150001C, 0x170001C, 0x1700028, Reg.mbxTherm,
       Reg.mbxLimit] : List Nat).contains off &&
    !(0x800000 ≤ off && off < 0x980000 && ([0x204, 0x508, 0x608] : List Nat).contains (off % 0x10000)) &&
    !(0x1500400 ≤ off && off < 0x1500460) && !(0x1000000 ≤ off && off < 0x1400000 && off % 0x100000 == 4) &&
    !(0x1600000 ≤ off && off < 0x1606000 && off % 16 == 0) && !(0x1608000 ≤ off && off < 0x1608200 && off % 0x40 == 0x10)

/-! ## What stays -/

/-- Only registers differ, and only those listed. -/
def State.onlyRegs (s t : State) (ks : List Nat) : Prop :=
  t = { s with regs := t.regs } ∧ ∀ k, k ∉ ks → t.reg k = s.reg k

/-- Only one partition's page tables differ: its runs and tables, and bytes of entries in its page-table pool (R221), with ZEROED of
the stacks those lie in (R231). -/
def TablesOnly (s t : State) (p : Nat) : Prop :=
  t = { s with parts := t.parts, regs := t.regs, mem := t.mem, free := t.free } ∧
    t.mem = { s.mem with hbm := t.mem.hbm, hbmOne := t.mem.hbmOne } ∧
    t.part p = { s.part p with maps := (t.part p).maps, tables := (t.part p).tables } ∧ (∀ q, q ≠ p → t.part q = s.part q) ∧
    (∀ k, (∀ n, k ≠ Reg.memStatus n) → t.reg k = s.reg k) ∧
    ∀ a, (∀ n d, n < (s.part p).ptTables * 512 → s.dpaOf p ((s.part p).ptPool + 8 * n) = some d → a < d ∨ d + 8 ≤ a) →
      t.hbmByte a = s.hbmByte a

/-- Every entry of a partition's page-table pool lies on a stack in service, in a 64-byte unit without an uncorrectable word, so that
it can be written (R208, R211). -/
def PoolSound (s : State) (p : Nat) : Prop :=
  ∀ n d, n < (s.part p).ptTables * 512 → s.dpaOf p ((s.part p).ptPool + 8 * n) = some d →
    s.offline (d / stackBase 1) = false ∧ ∀ w, d / 64 * 4 ≤ w → w < d / 64 * 4 + 4 → s.hbmBad w = false

/-! ## Commands -/

/-- A command in flight that its row runs now: it is there, of this opcode, it may run, no host read of it failed, and its work is
not done yet (R295, R329). -/
abbrev Runs (s : State) (id op : Nat) (c : Cmd) : Prop :=
  s.cmd? id = some c ∧ c.op = op ∧ s.canRun c = true ∧ c.hostErr = false ∧ c.phase ≠ .written

/-- A core's run of command `c` stands at the instruction `word` and may execute it (R155, R159, R160). -/
abbrev AtInsn (s : State) (core : Nat) (c : Cmd) (r : VRun) (word : Nat) : Prop :=
  core < 24 ∧ (s.core core).run = some r ∧ s.cmd? r.cmd = some c ∧ s.atInsn c r word = true

/-- One lane of a vector register. -/
def State.lane (s : State) (core r k : Nat) : Word := (s.vreg core r)[k]?.getD 0

/-- Only the vector engine of a core differs: its registers and the flags of its run. -/
def State.onlyVector (s t : State) (core : Nat) : Prop :=
  t = { s with cores := t.cores } ∧ (∀ k, k ≠ core → t.core k = s.core k) ∧
    t.core core = { s.core core with v := (t.core core).v, m := (t.core core).m, x := (t.core core).x, run := (t.core core).run }

end Sys2Proof.Machine
end

