-- ==== Sys2Proof/Certificates/Slice0/Obligations.lean ====
section
/-!
DEFINITION. The statements for the provers: what the commands of the DN-824 do, what they leave alone, and what every step keeps.
-/
open Sys2Proof Sys2Proof.Machine

/-- A step of a state with a command at the front of its queue is that command's effect on the state with the queue's rest.
The model's form of the block, log entry 10. (spec/95_what_each_step_holds.md.) -/
def Obligations.StepRunsFrontCommand : Prop :=
  ∀ (c : Instr) (rest : List Instr) (s : State), step { s with pending := c :: rest } = exec c { s with pending := rest }

/-- With nothing waiting, a step adds 1 ns to the timestamp while TCLK runs (supplies up, no THERMTRIP, PERST# high) and
changes nothing else. That an idle step is one TCLK period is the model's choice, log entry 1.
(spec/15_clocks_resets_global_stop.md.) -/
def Obligations.IdleStepCountsTime : Prop :=
  ∀ s : State, s.pending = [] →
    ∃ t, step s = .next t ∧
      t = { s with clk := { s.clk with
        time := if s.clk.powered = true ∧ s.clk.tripped = false ∧ s.clk.perst = false ∧ s.clk.heldBy / 32 % 16 = 0
          then s.clk.time + 1 else s.clk.time } }

/-- After reset every register reads its reset value of the register tables: the part identity, RATE 3 and the derating
threshold of every stack, four active arrays in every core, FW_ABSENT, the replay threshold, the watchdog, the port
configuration and timers, the thresholds and alert enables, PGOOD, and 0 in the queue, partition, stop, counter and trace
registers. (spec/00_scope.md, spec/03_matrix_fabric.md, spec/07_memory_system.md, spec/12_integrity_and_recovery.md,
spec/13_network_ports.md, spec/17_management_sideband.md, spec/18_package_pins_power.md.) -/
def Obligations.ResetRegisterValues : Prop :=
  (∀ k, State.reset.reg k = regReset k) ∧
    State.reset.fld Reg.gctlId 8 24 = 0x082411 ∧
    (∀ n, n < 8 → State.reset.fld (Reg.memStatus n) 0 2 = 3 ∧ State.reset.reg (Reg.memThresh n) = 0x100 ∧
      State.reset.reg (Reg.memCe n) = 0 ∧ State.reset.reg (Reg.part n) = 0 ∧ State.reset.reg (Reg.abort n) = 0 ∧
      State.reset.reg (Reg.traceStatus n) = 0 ∧ State.reset.reg (Reg.qbase n) = 0) ∧
    (∀ c, c < 24 → State.reset.fld (Reg.arrayStatus c) 0 4 = 0xF ∧ State.reset.reg (Reg.arrayFence c) = 0 ∧
      State.reset.reg (Reg.numFlags c) = 0 ∧ State.reset.reg (Reg.ctrCfg c 0) = 0) ∧
    (∀ n, n < 4 → State.reset.reg (Reg.net n 4) = 0x4AA801AB ∧ State.reset.reg (Reg.net n 0x40) = 0x00080710) ∧
    State.reset.reg Reg.ras = 4 ∧ State.reset.reg Reg.replayThresh = 0x40 ∧ State.reset.reg Reg.watchdog = 0xA ∧
    State.reset.reg Reg.mbxTherm = 0x35A5F ∧ State.reset.reg Reg.mbxLimit = 0x4B0 ∧ State.reset.reg Reg.alertEnable = 0x7F ∧
    State.reset.reg Reg.pwr = 0x3FF ∧ State.reset.reg Reg.secStatus = 0 ∧ State.reset.reg Reg.stopStatus = 0 ∧
    State.reset.reg Reg.adminCtl = 0

/-- For every state, every command answers a next state, whatever its operands name: no state makes the device fault or
refuse. That a command which names nothing the device has also answers one is the model's choice, log entry 2.
(spec/01_architecture.md, spec/09_host_interface_and_queues.md.) -/
def Obligations.EveryCommandAnswers : Prop :=
  ∀ (i : Instr) (s : State), ∃ t, exec i s = .next t

/-- For every state, a command with an operand outside what the device has is no event of it and leaves the state as it is:
the model's choice, log entry 2. (spec/01_architecture.md, spec/09_host_interface_and_queues.md.) -/
def Obligations.IllFormedCommandDoesNothing : Prop :=
  ∀ (i : Instr) (s : State), i.wf = false → exec i s = .next s

/-- Whatever a command does, it leaves the queue of waiting commands as it is: the form of the block, log entry 10.
(spec/95_what_each_step_holds.md.) -/
def Obligations.QueueOutsideEffects : Prop :=
  ∀ (i : Instr) (s t : State), exec i s = .next t → t.pending = s.pending

/-- From every state a step answers a next state, with the queue one command shorter unless it was empty, and a queue of
commands that all name things the device has stays such; so any number of steps answers a next state.
(spec/01_architecture.md, spec/95_what_each_step_holds.md.) -/
def Obligations.QueueNeverStops : Prop :=
  (∀ s : State, ∃ t, step s = .next t ∧ t.pending = s.pending.tail ∧ (s.queueOk = true → t.queueOk = true)) ∧
    ∀ (n : Nat) (s : State), ∃ t, Host.Core.run core n s = .next t ∧ State.pending t = s.pending.drop n

/-- From every state whose register map and memory tables (HBM, SRAM, their uncorrectable words, the fences) list their keys
in rising order and nothing that reads as an unlisted key, a step answers only states of that form, so equal contents are
equal states. (spec/07_memory_system.md, spec/00_scope.md.) -/
def Obligations.StepKeepsCanonicalForm : Prop :=
  ∀ s t : State, s.canonical = true → step s = .next t → t.canonical = true

/-- The state after reset meets the invariants: memory and registers in canonical form, 512 lanes in every vector register
held, and no command waiting. (spec/07_memory_system.md.) -/
def Obligations.ResetIsCanonical : Prop :=
  State.reset.canonical = true ∧ State.reset.queueOk = true ∧ State.reset.lanesOk = true ∧ State.reset.pending = []

/-- Outside a stop, a BAR0 write narrower than 32 bits, or a 32-bit or 64-bit write not aligned to its size, changes only
RAS_BAR_ACCESS_ERRORS, which counts it, saturating, whichever function sent it and wherever it lands. Outside a stop, an
aligned 64-bit write has the effect of two 32-bit writes, the lower offset first; a write to an offset that holds no register
and is no doorbell or vector has no effect and is not counted. All this holds of a request that passes the check of its IDE
stream; one that fails the check of a live stream is dropped and reported. (spec/00_scope.md,
spec/09_host_interface_and_queues.md.) -/
def Obligations.RegisterWritesByWidth : Prop :=
  (∀ (s : State) (fn off size : Nat) (val : BitVec 64) (ok : Bool), fn < 9 → off + size ≤ 2 ^ 26 → s.reaches fn = true →
     s.stopped = false → (s.streams fn = true → ok = true) →
     (size < 4 ∨ ((size = 4 ∨ size = 8) ∧ off % size ≠ 0)) →
     ∃ t, exec (.registerWrite fn off size val ok) s = .next t ∧
       t.fld Reg.barErrors 0 32 = min (s.fld Reg.barErrors 0 32 + 1) (2 ^ 32 - 1) ∧ s.onlyRegs t [Reg.barErrors]) ∧
  (∀ (s : State) (fn off : Nat) (val : BitVec 64) (ok : Bool), fn < 9 → s.reaches fn = true → s.stopped = false →
     (s.streams fn = true → ok = true) → off % 8 = 0 → off + 8 ≤ 2 ^ 26 →
     exec (.registerWrite fn off 8 val ok) s =
       .next ((s.write32 fn off (val.setWidth 32)).write32 fn (off + 4) (val.extractLsb' 32 32)) ∧
     exec (.registerWrite fn off 4 val ok) s = .next (s.write32 fn off (val.setWidth 32)) ∧
     ((0x2000000 ≤ off → exec (.registerWrite fn off 4 val ok) s = .next s))) ∧
  (∀ (s : State) (fn off size : Nat) (val : BitVec 64), fn < 9 → off + size ≤ 2 ^ 26 → s.reaches fn = true →
     s.streams fn = true → exec (.registerWrite fn off size val false) s = .next { s with out := s.out ++ [.aer fn] })

/-- A 32-bit write of a register that has no row of its own, through a view that decodes it, stores every RW and RWS bit,
clears every RW1C bit written 1, and leaves every other bit and every other register; a field kept for the physical function,
or a SEC_BOOT_ register after Eclosion, ignores the write. Beside registers only a counter's captured halves change, which a
write of the counter drops. (spec/00_scope.md, spec/16_counters_trace_tensor_watch.md.) -/
def Obligations.RegisterWriteFollowsAccessTypes : Prop :=
  ∀ (s : State) (fn off : Nat) (val : BitVec 64) (ok : Bool) (r : RegRow), Reachable s fn off → off % 4 = 0 → off < 2 ^ 26 →
    (s.streams fn = true → ok = true) → plainReg off = true → regRow? off = some r →
    ∃ t, exec (.registerWrite fn off 4 val ok) s = .next t ∧ s.onlyRegs { t with cores := s.cores } [regKey fn off] ∧
      (counterAt off = none → t.cores = s.cores) ∧
      (∀ core i, counterAt off = some (core, i) → t.counterReg core i = t.reg (regKey fn off)) ∧
      (s.ignoresWrite fn off = true → t = s) ∧
      (s.ignoresWrite fn off = false → ∀ i, i < 32 →
        (t.reg (regKey fn off)).getLsbD i =
          if (BitVec.ofNat 32 r.w1c).getLsbD i = true ∧ val.getLsbD i = true then false
          else if (BitVec.ofNat 32 r.rw).getLsbD i = true then val.getLsbD i
          else (s.reg (regKey fn off)).getLsbD i)

/-- A read of BAR0 of at most 8 bytes returns the bytes it addresses of the registers it touches, in ascending order, each
with what reading it does; outside a function's view, and where no register is, they are 0. A read of GCTL_TIME_LO returns
the timestamp's low half and captures its high half of the same moment, so that one 64-bit read returns all of it; a read of
DBG_PART_p_TRACE_INDEX_LO captures INDEX_HI; a read of a counter's LO captures its HI, and with it the whole of the counter
above when that is chained. Nothing else changes. A register write of a counter's configuration word stores its defined
fields when the word is valid, the counter keeping its value, and stores nothing when the word names a reserved event code,
gives a qualifier to an event without one, or sets CHAIN on an even counter. A counter of a level event that passes its end
advances from 2^48 - 1 by 1: where it is not chained from above the count is 0 and OVF is set.
(spec/00_scope.md, spec/15_clocks_resets_global_stop.md, spec/16_counters_trace_tensor_watch.md.) -/
def Obligations.ReadsThatCaptureAndCounterWords : Prop :=
  (∀ (s : State) (fn off size : Nat), fn < 9 → 0 < size → size ≤ 8 → off + size ≤ 2 ^ 26 → s.reaches fn = true →
    let t := (s.barRead fn off size).1.emit (.readData fn off (s.barRead fn off size).2)
    (s.barRead fn off size).2.length = size ∧
    ((touched off size).contains Reg.timeLo = true → exec (.timeLoRead fn off size) s = .next t) ∧
    (∀ core k, core < 24 → k < 16 → (touched off size).contains (Reg.ctrLo core k) = true →
      exec (.counterLoRead fn off size) s = .next t) ∧
    (∀ p, p < 8 → (touched off size).contains (Reg.traceLo p) = true → exec (.traceIndexLoRead fn off size) s = .next t) ∧
    (∀ i, i < 16 → (touched off size).contains (Reg.windowData + 4 * i) = true →
      exec (.rasWindowDataRead fn off size) s = .next t)) ∧
  (∀ (s : State) (fn off : Nat), off % 4 = 0 →
    s.barRead fn off 4 = (s.afterRead fn off, leBytes 4 (s.regShown fn off).toNat) ∧
    s.barRead fn off 8 = ((s.afterRead fn off).afterRead fn (off + 4),
      leBytes 4 (s.regShown fn off).toNat ++ leBytes 4 ((s.afterRead fn off).regShown fn (off + 4)).toNat) ∧
    (s.decodes fn off = false → s.regShown fn off = 0 ∧ s.afterRead fn off = s)) ∧
  (∀ s : State, Reachable s 0 Reg.timeLo → s.decodes 0 Reg.timeHi = true →
    (∃ t, exec (.timeLoRead 0 Reg.timeLo 4) s = .next t ∧ t.out = s.out ++ [.readData 0 Reg.timeLo (leBytes 4 s.now)] ∧
      t.reg Reg.timeHi = BitVec.ofNat 32 (s.now / 2 ^ 32) ∧ s.onlyRegs { t with out := s.out } [Reg.timeHi]) ∧
    (∃ t, exec (.timeLoRead 0 Reg.timeLo 8) s = .next t ∧ t.out = s.out ++ [.readData 0 Reg.timeLo (leBytes 8 s.now)] ∧
      t.reg Reg.timeHi = BitVec.ofNat 32 (s.now / 2 ^ 32) ∧ s.onlyRegs { t with out := s.out } [Reg.timeHi])) ∧
  (∀ (s : State) (fn p : Nat), p < 8 → Reachable s fn (Reg.traceLo p) →
    ∃ t, exec (.traceIndexLoRead fn (Reg.traceLo p) 4) s = .next t ∧
      t.out = s.out ++ [.readData fn (Reg.traceLo p) (leBytes 4 (s.part p).trace.written)] ∧
      t.reg (Reg.traceHi p) = BitVec.ofNat 32 ((s.part p).trace.written / 2 ^ 32) ∧
      s.onlyRegs { t with out := s.out } [Reg.traceHi p]) ∧
  (∀ (s : State) (fn core k : Nat), core < 24 → k < 16 → Reachable s fn (Reg.ctrLo core k) →
    ∃ t, exec (.counterLoRead fn (Reg.ctrLo core k) 4) s = .next t ∧
      t.out = s.out ++ [.readData fn (Reg.ctrLo core k) (leBytes 4 (s.counterReg core (2 * k)).toNat)] ∧
      (s.chained core k = false → s.counterReg core (2 * k) = s.reg (Reg.ctrLo core k) ∧
        t.counterReg core (2 * k + 1) = s.reg (Reg.ctrHi core k)) ∧
      (k % 2 = 0 → s.chained core (k + 1) = true →
        t.counterReg core (2 * k + 2) = s.reg (Reg.ctrLo core (k + 1)) ∧
        t.counterReg core (2 * k + 3) = s.reg (Reg.ctrHi core (k + 1))) ∧
      t = { s with out := t.out, cores := t.cores }) ∧
  (∀ (s : State) (fn core k : Nat) (val : BitVec 32), core < 24 → k < 16 → Reachable s fn (Reg.ctrCfg core k) →
     ∃ t, exec (.counterCfgWrite fn core k val) s = .next t ∧ s.onlyRegs t [Reg.ctrCfg core k] ∧
       t.reg (Reg.ctrCfg core k) = (if cfgOk k val.toNat then val &&& 0x00FF0FFF else s.reg (Reg.ctrCfg core k)) ∧
       (k % 2 = 0 → val.getLsbD 10 = true → t = s) ∧
       (val.toNat % 256 = 0x03 → t = s) ∧ (val.toNat % 256 = 0x10 → val.toNat / 2 ^ 16 % 256 ≠ 0 → t = s)) ∧
  (∀ (s : State) (core k : Nat), core < 24 → k < 16 → s.active = true → s.countsLevel core k = true →
     let r := (s.setCtr core k (2 ^ 48 - 1)).ctrAdd core k 1
     exec (.counterWrap core k) s = .next (r.1.ovfTrigger core r.2) ∧
     ((k % 2 = 1 ∨ s.chained core (k + 1) = false) → r.2 = [k] ∧ r.1.ctr core k = 0 ∧
       r.1.fld (Reg.ctrHi core k) 31 1 = 1 ∧ s.onlyRegs r.1 [Reg.ctrLo core k, Reg.ctrHi core k]))

/-- Without CHAIN, a counter that passes 2^48 - 1 wraps to 0 and sets its OVF; when odd counter 2j + 1 sets CHAIN it ignores
its EVENT and counts the wraps of counter 2j, which then sets no OVF; the pair forms one 96-bit count; CHAIN on an even
counter is rejected; a chained odd counter that wraps sets its own OVF. (R443.) -/
def Obligations.CountersWrapAndChain : Prop :=
  ∀ (s : State) (c k n : Nat), n < 2 ^ 48 →
    (s.chained c (k + 1) = false ∨ k % 2 = 1 →
      ((s.ctrAdd c k n).1.ctr c k = (s.ctr c k + n) % 2 ^ 48 ∧
       (s.ctrAdd c k n).1.fld (Reg.ctrHi c k) 31 1 = (if 2 ^ 48 ≤ s.ctr c k + n then 1 else s.fld (Reg.ctrHi c k) 31 1))) ∧
    (s.chained c (k + 1) = true → k % 2 = 0 →
      ((s.ctrAdd c k n).1.ctr c k + 2 ^ 48 * (s.ctrAdd c k n).1.ctr c (k + 1) =
          (s.ctr c k + 2 ^ 48 * s.ctr c (k + 1) + n) % 2 ^ 96 ∧
       (s.ctrAdd c k n).1.fld (Reg.ctrHi c k) 31 1 = s.fld (Reg.ctrHi c k) 31 1 ∧
       (s.ctrAdd c k n).1.fld (Reg.ctrHi c (k + 1)) 31 1 =
          (if 2 ^ 96 ≤ s.ctr c k + 2 ^ 48 * s.ctr c (k + 1) + n then 1 else s.fld (Reg.ctrHi c (k + 1)) 31 1))) ∧
    (s.chained c k = true → ∀ ev ok, s.ctrSelects c k ev ok = false) ∧
    (k % 2 = 0 → ∀ w, bits w 10 1 = 1 → cfgOk k w = false) ∧
    (∀ (id : Nat) (d : Cmd) (b : List Byte), Runs s id 0x89 d → d.block = some b → num b 6 1 / 2 = 0 → num b 7 57 = 0 →
      (∀ x ∈ s.coreMask d.part (num b 0 4), (s.coresOf d.part).contains x = true) → k < 16 → k % 2 = 0 →
      bitB (num b 4 2) k = true → bits (num b (64 + 4 * k) 4) 10 1 = 1 →
      exec (.counterConfig id) s = .next (s.endRun d 0x0104 0 none))

/-- Outside a stop, an aligned 8-byte doorbell write after Eclosion for an enabled queue that the function owns and that
still serves latches the tail and sets the pending bit of that queue alone, and counts FE_DOORBELL; a tail beyond the ring
halts the queue with 0x0121 instead; a doorbell for a queue that is not enabled, or before Eclosion, is dropped and counted
in FE_DB_DROPS of its function. A 4-byte write of the lower half acts alike, the upper half alone is ignored, and any other
width or alignment is dropped and counted. During a stop the write waits until release. A head doorbell of a completion queue
that the function owns, naming a head within the ring that does not pass TAIL, sets that head and arms the queue if its ARM
bit is set, then looks at the interrupt conditions and lets waiting front-end entries in; a head that passes TAIL or lies
outside the ring, or a queue that is not enabled, is dropped and counted, and changes no queue; one in another function's
range has no effect, and one during a stop is dropped and counted. An expiry of MOD_TIME looks at the same conditions.
(spec/09_host_interface_and_queues.md, spec/15_clocks_resets_global_stop.md.) -/
def Obligations.DoorbellsMoveTailsAndHeads : Prop :=
  (∀ (s : State) (fn q : Nat) (val : BitVec 64), fn < 9 → q < 2 ^ 20 → s.alive = true → s.fnExists fn = true →
     (s.stopped = true → exec (.submissionDoorbell fn (8 * q) 8 val) s =
       .next { s with fe := { s.fe with stopHeld := s.fe.stopHeld ++ [.submissionDoorbell fn (8 * q) 8 val] } }) ∧
     (s.stopped = false → s.eclosed = true → (s.sq q).enabled = true → (s.sq q).fn = fn → s.fnServes fn = true →
       (bits val.toNat 0 16 < 2 ^ (s.sq q).size →
         ∃ u : State, exec (.submissionDoorbell fn (8 * q) 8 val) s = .next (u.countPart (s.sq q).part 0x60 1) ∧
           u.tail q = bits val.toNat 0 16 ∧ u.isPending q = true ∧
           (∀ r, r ≠ q → u.tail r = s.tail r ∧ u.isPending r = s.isPending r) ∧
           u = { s with fe := { s.fe with tails := u.fe.tails, pend := u.fe.pend } }) ∧
       (2 ^ (s.sq q).size ≤ bits val.toNat 0 16 →
         ∃ u : State, exec (.submissionDoorbell fn (8 * q) 8 val) s = .next (u.frontEntry q 0x0121) ∧
           (u.sq q).halted = true ∧ (u.sq q).haltStatus = 0x0121 ∧ (∀ r, r ≠ q → u.sq r = s.sq r) ∧
           u = { s with fe := { s.fe with sqs := u.fe.sqs } })) ∧
     (s.stopped = false → s.eclosed = false ∨ (s.sq q).enabled = false ∨ (s.sq q).fn ≠ fn ∨ s.fnServes fn = false →
       exec (.submissionDoorbell fn (8 * q) 8 val) s =
         .next (if fn = 0 then s.bump (regKey fn Reg.dbDrops) 0 32 1
           else (s.bump (regKey fn Reg.dbDrops) 0 32 1).countPart (fn - 1) 0x61 1)) ∧
     (s.stopped = false →
       exec (.submissionDoorbell fn (8 * q) 4 val) s = exec (.submissionDoorbell fn (8 * q) 8 val) s ∧
       exec (.submissionDoorbell fn (8 * q + 4) 4 val) s = .next s)) ∧
  (∀ (s : State) (fn off size : Nat) (val : BitVec 64), fn < 9 → off < 2 ^ 23 → s.alive = true → s.fnExists fn = true →
     s.stopped = false → (off % 8 ≠ 0 ∨ (size ≠ 4 ∧ size ≠ 8)) → (off % 8 ≠ 4 ∨ size ≠ 4) →
     exec (.submissionDoorbell fn off size val) s =
       .next (if fn = 0 then s.bump (regKey fn Reg.dbDrops) 0 32 1
         else (s.bump (regKey fn Reg.dbDrops) 0 32 1).countPart (fn - 1) 0x61 1)) ∧
  (∀ (s : State) (fn c : Nat) (val : BitVec 64), fn < 9 → c < 65536 → s.alive = true → s.fnExists fn = true →
    (s.stopped = true → exec (.completionHeadDoorbell fn c val) s = .next (s.bump Reg.stopDrops 0 32 1)) ∧
    (s.stopped = false → fn ≠ 0 → s.cqOwner c ≠ fn → exec (.completionHeadDoorbell fn c val) s = .next s) ∧
    (s.stopped = false → fn = 0 ∨ s.cqOwner c = fn → (s.cq c).enabled = true → (s.cq c).fn = fn →
      bits val.toNat 0 16 < 2 ^ (s.cq c).size →
      (bits val.toNat 0 16 + 2 ^ (s.cq c).size - (s.cq c).head) % 2 ^ (s.cq c).size ≤ (s.cq c).unread →
      ∃ u : State, exec (.completionHeadDoorbell fn c val) s =
          .next ((u.cqInterrupt c (bitB val.toNat 16)).drainWaiting c (2 ^ (s.cq c).size)) ∧
        (u.cq c).head = bits val.toNat 0 16 ∧ (u.cq c).armed = ((s.cq c).armed || bitB val.toNat 16) ∧
        (∀ d, d ≠ c → u.cq d = s.cq d) ∧ u = { s with fe := { s.fe with cqs := u.fe.cqs } }) ∧
    (s.stopped = false → fn = 0 ∨ s.cqOwner c = fn →
      ((s.cq c).enabled = false ∨ (s.cq c).fn ≠ fn ∨ 2 ^ (s.cq c).size ≤ bits val.toNat 0 16 ∨
        (s.cq c).unread < (bits val.toNat 0 16 + 2 ^ (s.cq c).size - (s.cq c).head) % 2 ^ (s.cq c).size) →
      exec (.completionHeadDoorbell fn c val) s =
        .next (if fn = 0 then s.bump (regKey fn Reg.dbDrops) 0 32 1
          else (s.bump (regKey fn Reg.dbDrops) 0 32 1).countPart (fn - 1) 0x61 1))) ∧
  (∀ (s : State) (c t : Nat), c < 65536 → s.active = true →
    exec (.cqModTimeExpiry c t) s = .next ((s.atTime t).cqInterrupt c false))

/-- A completion entry is sent as a 32-byte write to the slot at TAIL, its fields little-endian at their offsets and bit 7 of
FLAGS the queue's phase; TAIL then moves on, wrapping to 0 with the phase inverted after the last slot. No other queue
changes. An armed completion queue of a function that may send, with interrupts not suppressed, raises its vector and disarms
exactly when the entries since the last interrupt reach MOD_COUNT, or one of them holds a status outside the 0x00xx family,
or the oldest has waited MOD_TIME, or a head doorbell arms it while entries lie before TAIL; otherwise nothing changes. What
is sent for a virtual function that does not exist goes under the physical function's requester ID.
(spec/09_host_interface_and_queues.md, spec/10_command_set.md.) -/
def Obligations.EntriesAndInterrupts : Prop :=
  (∀ (s : State) (c tag status engine flags queue seq start dur replays detail : Nat),
     s.egress (s.cq c).fn = true → s.ideBlocked (s.reqFn (s.cq c).fn) = false →
     tag < 2 ^ 32 → status < 2 ^ 16 → engine < 2 ^ 8 → flags < 2 ^ 7 → queue < 2 ^ 32 → seq < 2 ^ 32 → start < 2 ^ 64 →
     detail < 2 ^ 24 →
     let e := entryBytes tag status engine flags queue seq start dur replays detail
     let x := s.cq c
     e.length = 32 ∧
     ∃ w : List Byte, w.length = 32 ∧ num w 0 4 = tag ∧ num w 4 2 = status ∧ num w 6 1 = engine ∧
       num w 7 1 = flags + 128 * b2n x.phase ∧ num w 8 4 = queue ∧ num w 12 4 = seq ∧ num w 16 8 = start ∧
       num w 24 4 = min dur 0xFFFFFFFF ∧ num w 28 1 = min replays 255 ∧ num w 29 3 = detail ∧
       ∃ u : State, s.putEntry c e = u.cqInterrupt c false ∧
         u.out = s.out ++ [.hostWrite (s.reqFn x.fn) (x.ring + 32 * x.tail) w] ∧
         (u.cq c).tail = (if x.tail + 1 = 2 ^ x.size then 0 else x.tail + 1) ∧
         (u.cq c).phase = (if x.tail + 1 = 2 ^ x.size then !x.phase else x.phase) ∧ (u.cq c).fresh = x.fresh + 1 ∧
         (∀ d, d ≠ c → u.cq d = s.cq d) ∧ u = { s with out := u.out, fe := { s.fe with cqs := u.fe.cqs } }) ∧
  (∀ (s : State) (c : Nat) (arming : Bool), s.egress (s.cq c).fn = true →
     let x := s.cq c
     let due := (0 < x.fresh ∧ (x.modCount ≤ x.fresh ∨ x.freshErr = true ∨ (x.modTime ≠ 0 ∧ x.oldest + 1000 * x.modTime ≤ s.now))) ∨
       (arming = true ∧ x.unread ≠ 0)
     (x.armed = true → x.noIrq = false → due →
       ((s.cqInterrupt c arming).cq c).armed = false ∧ ((s.cqInterrupt c arming).cq c).fresh = 0 ∧
       (s.fe.fnMask.get (fun _ => false) x.fn = false → s.fld (regKey x.fn (msixBase + 16 * x.vector + 12)) 0 1 = 0 →
         s.ideBlocked (s.reqFn x.fn) = false → (s.cqInterrupt c arming).out = s.out ++ [.msix x.fn x.vector])) ∧
     (x.armed = false ∨ x.noIrq = true ∨ ¬ due → s.cqInterrupt c arming = s)) ∧
  (∀ (s : State) (fn : Nat), (s.fnExists fn = true → s.reqFn fn = fn) ∧ (s.fnExists fn = false → s.reqFn fn = 0))

/-- The scheduler's visit of the next ready queue clears its pending bit, moves the queue's context to the front of the
context cache, and, where slots lie between HEAD and the latched tail and the function may send, asks for as many as the ring
holds, the completion queue has room for and eight allow, in one read request or in two where the run wraps, reserving a
completion slot for each; where no slot lies there it ends; where the stream is not live the queue halts with 0x0A10; a
context that cannot be read from HBM loses the queue. A parity error of the scheduler is recorded and the partition takes a
compute reset. A fetch that succeeds puts its packets behind those of the queue in ring order and moves HEAD and SUBMIT_SEQ
past them; one that fails before its first packet halts the queue with 0x0312 and leaves HEAD; one of an earlier epoch is
discarded and counted. (spec/09_host_interface_and_queues.md, spec/11_steps_partitions_tenancy.md,
spec/12_integrity_and_recovery.md.) -/
def Obligations.SchedulerVisitReadsSlots : Prop :=
  (∀ (s : State) (o q : Nat) (lost : Bool), s.active = true → s.eclosed = true → s.nextVisit = some (o, q) →
    (∃ u : State, u.isPending q = false ∧ (∀ r, r ≠ q → u.isPending r = s.isPending r) ∧ u.fe.rrOwner = (o + 1) % 9 ∧
      u.fe.ringReads = s.fe.ringReads ∧ u.fe.sqs = s.fe.sqs ∧ u.fe.cqs = s.fe.cqs ∧ u.fe.tails = s.fe.tails ∧
      u.fe.fetched = s.fe.fetched ∧ u.fe.cmds = s.fe.cmds ∧ u.fe.cache.head? = some q ∧
      (lost = true → s.fe.cache.contains q = false → u.ctxBad q = true) ∧
      exec (.schedulerVisit lost false) s = .next (
        if s.fe.cache.contains q = false ∧ u.ctxBad q = true then u.loseContext q
        else if (s.sq q).behind (s.tail q) = 0 then
          (u.updSq q fun x => { x with tail := s.tail q }).countPart (s.sq q).part 0x63 1
        else if u.ideBlocked (u.reqFn (s.sq q).fn) = true then u.haltFront q 0x0A10
        else
          (u.updSq q fun x => { x with tail := s.tail q }).ringRead q
            (min 8 (min ((s.sq q).behind (s.tail q)) (s.cq (s.sq q).cq).room))
            (min 8 (min ((s.sq q).behind (s.tail q)) (s.cq (s.sq q).cq).room)) (s.tail q))) ∧
    ∃ u : State, exec (.schedulerVisit lost true) s = .next u ∧ u.fe.ringReads = s.fe.ringReads ∧ u.fe.sqs = s.fe.sqs ∧
      u.fe.pend = s.fe.pend ∧ (s.configured (s.sq q).part = true → (u.part (s.sq q).part).resetDue = true)) ∧
  (∀ (s : State) (q n taken tail : Nat), 0 < n →
    let x := s.sq q
    let n1 := min n (2 ^ x.size - x.head)
    ∃ u : State, s.ringRead q n taken tail = u ∧
      u.fe.ringReads = s.fe.ringReads ++
        [{ queue := q, fn := x.fn, part := x.part, epoch := s.epoch x.part, first := x.head, n1, n2 := n - n1, taken, tail }] ∧
      (u.cq x.cq).reserved = (s.cq x.cq).reserved + n ∧
      u.out = s.out ++ [.ringRead (s.reqFn x.fn) (x.ring + 64 * x.head) (64 * n1)] ++
        (if n1 < n then [.ringRead (s.reqFn x.fn) x.ring (64 * (n - n1))] else []) ∧
      u = { s with out := u.out, fe := { s.fe with ringReads := u.fe.ringReads, cqs := u.fe.cqs } }) ∧
  (∀ (s : State) (q : Nat) (r : RingRead) (slots : List (BitVec 512)), q < 2 ^ 20 → s.alive = true → s.stopped = false →
    s.fe.ringReads.find? (fun r => r.queue == q) = some r →
    (r.epoch = s.epoch r.part → (s.sq q).enabled = true → (s.sq q).part = r.part → (s.sq q).epoch = r.epoch →
      (s.sq q).halted = false → (s.sq q).stopFetch = false → r.void = false →
      ((r.first + r.n1 + r.n2) % 2 ^ (s.sq q).size ≠ r.tail →
        ∃ u : State, exec (.ringFetchCompletion q true true slots) s = .next ((u.giveBack (s.sq q).cq 0).setPending q true) ∧
          u.fe.fetched = s.fe.fetched ++ (List.range (r.n1 + r.n2)).map (fun i =>
            ⟨q, (s.sq q).seq + BitVec.ofNat 32 i, (r.first + i) % 2 ^ (s.sq q).size, (slots[i]?.getD 0).toNat⟩) ∧
          (u.sq q).head = (r.first + (r.n1 + r.n2)) % 2 ^ (s.sq q).size ∧
          (u.sq q).seq = (s.sq q).seq + BitVec.ofNat 32 (r.n1 + r.n2) ∧
          (u.sq q).inFlight = (s.sq q).inFlight + (r.n1 + r.n2) ∧ (∀ j, j ≠ q → u.sq j = s.sq j) ∧
          u = { s with fe := { s.fe with ringReads := u.fe.ringReads, fetched := u.fe.fetched, sqs := u.fe.sqs } }) ∧
      (∀ ok2, 0 < r.n1 → ∃ u : State, exec (.ringFetchCompletion q false ok2 slots) s =
          .next ((u.giveBack (s.sq q).cq (r.n1 + r.n2)).haltFront q 0x0312) ∧ u.fe.fetched = s.fe.fetched ∧
        (u.sq q).head = r.first % 2 ^ (s.sq q).size ∧ (u.sq q).seq = (s.sq q).seq)) ∧
    (r.epoch ≠ s.epoch r.part → ∀ ok1 ok2,
      ∃ u : State, exec (.ringFetchCompletion q ok1 ok2 slots) s =
          .next (if (s.sq q).enabled = true ∧ (s.sq q).part = r.part ∧ (s.sq q).epoch = r.epoch then
            u.giveBack (s.sq q).cq (r.n1 + r.n2) else u) ∧
        u.fe.fetched = s.fe.fetched ∧
        u.fld (Reg.staleDrops r.part) 0 32 = min (s.fld (Reg.staleDrops r.part) 0 32 + (if r.n2 = 0 then 1 else 2)) (2 ^ 32 - 1)))

/-- A packet is rejected by the first check it fails, in the order version, opcode, class, counters, partition, reserved
bits, modes, fences, epoch; a rejected packet, once no earlier command of its queue waits on a fence, halts its queue with
that status, its entry is written, the slots behind it are discarded and fetched again; a packet that passes and may be
dispatched leaves the fetched packets and, unless its partition is absent or its step is shut, enters flight as the newest
command, its wait met at once where it has none. (spec/10_command_set.md, spec/08_memory_ordering.md.) -/
def Obligations.PacketsAreCheckedInOrder : Prop :=
  (∀ (s : State) (x : SqCtx) (pkt : Nat),
    s.packetCheck x pkt =
      ((([(!(bits pkt 8 4 == 1), 0x0102), (!opcodes.contains (pkt % 256), 0x0101),
          (!classMay x.cls (pkt % 256) (bits pkt 392 8), 0x0201),
          (pkt % 256 == 0x03 && bits pkt 320 1 == 1 && x.cls == 2 && !x.counters, 0x0202),
          (x.cls == 1 && partOps.contains (pkt % 256) && !(bits pkt 384 3 == x.part), 0x0203),
          (!reservedOk pkt, 0x0103), (!modesOk pkt, 0x0403), (!s.fencesOk x.part pkt, 0x0402),
          (!(x.epoch == s.epoch x.part), 0x0903)] : List (Bool × Nat)).find? (·.1)).map (·.2))) ∧
  (∀ (s : State) (q : Nat) (f : Fetched), q < 2 ^ 20 → s.active = true → s.eclosed = true →
    s.fe.fetched.find? (fun f => f.queue == q) = some f →
    (∀ st, s.packetCheck (s.sq q) f.pkt = some st → s.queueWaits q = false →
      ∃ u : State, exec (.commandDispatch q) s = .next u ∧
        (u.sq q).halted = true ∧ (u.sq q).haltStatus = st ∧ u.fe.fetched.all (fun g => g.queue != q) = true ∧
        (u.sq q).head = (f.slot + 1) % 2 ^ (s.sq q).size ∧ (u.sq q).seq = f.seq + 1 ∧ u.fe.cmds = s.fe.cmds ∧
        (s.egress (s.cq (s.sq q).cq).fn = true → s.ideBlocked (s.reqFn (s.cq (s.sq q).cq).fn) = false →
          ∃ w, Out.hostWrite (s.reqFn (s.cq (s.sq q).cq).fn) ((s.cq (s.sq q).cq).ring + 32 * (s.cq (s.sq q).cq).tail) w ∈ u.out ∧
            num w 0 4 = bits f.pkt 32 32 ∧ num w 4 2 = st)) ∧
    (s.packetCheck (s.sq q) f.pkt = none → s.mayDispatch f = true →
      exec (.commandDispatch q) s = .next (s.dispatch f) ∧
      ((s.dispatch f).fe.fetched = s.fe.fetched.filter (fun g => g != f)) ∧
      ((s.cmdOf f).waitCond = 0 → s.configured (s.cmdOf f).part = true →
        (stepOps.contains (f.pkt % 256) = true → s.stepShut (s.cmdOf f).part = false) →
        ∃ d ∈ (s.dispatch f).fe.cmds, d.id = s.fe.nextCmd ∧ d.pkt = f.pkt ∧ d.queue = q ∧ d.phase = .dispatched ∧
          d.met = some s.now ∧ d.part = (s.cmdOf f).part ∧ d.epoch = s.epoch (s.cmdOf f).part) ∧
      (s.dispatch f).fe.nextCmd = s.fe.nextCmd + 1))

/-- A dispatched command whose wait held and whose barrier is satisfied, with its block read and no range conflict, starts:
its phase, its START, the latest of dispatch, wait and barrier, its cores and the timer of its later waits, which runs from
START, are set, single-bit errors of what it reads are corrected, and its begin record of START is staged; no other command
changes. A wait whose deadline passes first ends its command with 0x0401 at the deadline, without a signal.
(spec/10_command_set.md, spec/07_memory_system.md, spec/16_counters_trace_tensor_watch.md.) -/
def Obligations.CommandsStartInTurn : Prop :=
  (∀ (s : State) (id : Nat) (c : Cmd), s.cmd? id = some c → s.active = true → s.mayStart c = true →
    (stepOps.contains c.op = true → s.fld (Reg.part c.part) 3 1 = 1) → (c.blockSize = none ∨ c.block.isSome = true) →
    (spreads c.op = true ∨ s.ranged c = false) →
    ∃ u : State, exec (.commandStart id none) s = .next ((u.fixReads c).traceCmd 1 0 31 { c with start := c.startTime } 0 0) ∧
      u.cmd? id = some { c with phase := .started, start := c.startTime, begun := s.now,
                                deadline := c.startTime + 1000 * (c.timeoutM1 + 1), cores := (s.uses c).1 } ∧
      (∀ j, j ≠ id → u.cmd? j = s.cmd? j) ∧ u = { s with fe := { s.fe with cmds := u.fe.cmds } }) ∧
  (∀ (s : State) (id core : Nat) (c : Cmd), s.cmd? id = some c → s.active = true → s.mayStart c = true →
    (s.uses c).1.contains core = true → exec (.commandStart id (some core)) s = .next (s.sequencerParity core)) ∧
  (∀ (s : State) (id t : Nat) (c : Cmd), s.cmd? id = some c → s.active = true → c.infinite = false →
    c.deadline ≤ (s.atTime t).now → c.epoch = s.epoch c.part → c.phase = .dispatched → c.met = none →
    exec (.waitTimeout id t) s =
      .next ((s.atTime t).retire { c with start := c.dispAt, waited := true } 0x0401 0 false (some c.deadline)))

/-- A completion for an outstanding tag frees the tag; under the current epoch its bytes reach the command that asked, or
fail that command's read if it carries an error or the read times out; under a stale epoch it is discarded and counted in
STALE_DROPS. A completion that arrives during a stop waits for the release. (spec/11_steps_partitions_tenancy.md,
spec/15_clocks_resets_global_stop.md.) -/
def Obligations.HostReadsComeBackByTag : Prop :=
  ∀ (s : State) (fn tag : Nat) (r : Tag) (ok : Bool) (data : List Byte), fn < 9 → s.alive = true → s.tag? fn tag = some r →
    (s.stopped = true → exec (.hostReadCompletion fn tag ok data) s =
      .next { s with fe := { s.fe with stopHeld := s.fe.stopHeld ++ [.hostReadCompletion fn tag ok data] } }) ∧
    (s.stopped = false →
    (r.epoch ≠ s.epoch r.part →
      ∃ t, exec (.hostReadCompletion fn tag ok data) s = .next t ∧ t.fe.tags = s.fe.tags.filter (fun x => x != r) ∧
        t.fld (Reg.staleDrops r.part) 0 32 = min (s.fld (Reg.staleDrops r.part) 0 32 + 1) (2 ^ 32 - 1) ∧
        t.host = s.host ∧ t.fe.cmds = s.fe.cmds) ∧
    (r.epoch = s.epoch r.part → ok = true →
      ∃ t, exec (.hostReadCompletion fn tag ok data) s = .next t ∧ t.fe.tags = s.fe.tags.filter (fun x => x != r) ∧
        t.host = s.host.writeN Config.blankByte r.addr (padTo r.len data) ∧
        t.fe.cmds = s.fe.cmds.map (fun c => if c.id = r.cmd then { c with got := c.got ++ [(r.addr, r.len)] } else c) ∧
        t = { s with host := t.host, fe := { s.fe with tags := t.fe.tags, cmds := t.fe.cmds } }) ∧
    (r.epoch = s.epoch r.part → ok = false →
      ∃ t, exec (.hostReadCompletion fn tag ok data) s = .next t ∧
        exec (.hostReadCompletionTimeout fn tag) s = .next t ∧ t.fe.tags = s.fe.tags.filter (fun x => x != r) ∧
        t.fe.cmds = s.fe.cmds.map (fun c => if c.id = r.cmd then { c with hostErr := true } else c) ∧
        t = { s with fe := { s.fe with tags := t.fe.tags, cmds := t.fe.cmds } }))

/-- A wait holds by its unsigned 64-bit condition; a command that ends in the 0x00xx family, or with SIGNAL_ON_ERROR, and
that considers a signal whose fence word can be read leaves the fence at the sum modulo 2^64, the value, or the larger of the
two; a command that does not signal leaves every fence as it is. (spec/10_command_set.md, spec/08_memory_ordering.md.) -/
def Obligations.FenceConditionsAndSignals : Prop :=
  (∀ (f : BitVec 64) (v : Nat), (condHolds 1 f v = true ↔ v ≤ f.toNat) ∧ (condHolds 2 f v = true ↔ f.toNat = v) ∧
    (v < 2 ^ 64 → (condHolds 3 f v = true ↔ f &&& BitVec.ofNat 64 v ≠ 0))) ∧
  (∀ (s : State) (c : Cmd) (st d k : Nat), (okStatus st = true ∨ c.signalOnError = true) →
    s.fenceKey c.qpart c.signalFence = some k → s.fenceFault k = none →
    (c.signalMode = 1 → (s.retire c st d true).fence k = s.fence k + BitVec.ofNat 64 c.signalValue) ∧
    (c.signalMode = 2 → (s.retire c st d true).fence k = BitVec.ofNat 64 c.signalValue) ∧
    (c.signalMode = 3 → ((s.retire c st d true).fence k).toNat = max (s.fence k).toNat (c.signalValue % 2 ^ 64)) ∧
    (∀ j, j ≠ k → (s.retire c st d true).fence j = s.fence j)) ∧
  (∀ (s : State) (c : Cmd) (st d k : Nat) (sig : Bool),
    (sig = false ∨ c.signalMode = 0 ∨ (okStatus st = false ∧ c.signalOnError = false)) →
    (s.retire c st d sig).fence k = s.fence k)

/-- A command that ends is no longer in flight, every other command still is, and its queue's count is one lower; a status
outside the 0x00xx family halts the queue unless the command asked to continue and the status is none of those that always
halt. (spec/10_command_set.md, spec/09_host_interface_and_queues.md.) -/
def Obligations.EndedCommandsLeaveFlight : Prop :=
  ∀ (s : State) (c : Cmd) (st d : Nat) (sig : Bool), s.cmd? c.id = some c → (s.sq c.queue).adminGone = false →
    (s.retire c st d sig).cmd? c.id = none ∧
    (∀ e ∈ s.fe.cmds, e.id ≠ c.id → ((s.retire c st d sig).cmd? e.id).isSome = true) ∧
    ((s.retire c st d sig).sq c.queue).inFlight = (s.sq c.queue).inFlight - 1 ∧
    ((sig = false ∨ c.signalMode = 0) → c.halts st = true → ((s.retire c st d sig).sq c.queue).halted = true ∧
      ((s.retire c st d sig).sq c.queue).haltStatus = st) ∧
    ((sig = false ∨ c.signalMode = 0) → c.halts st = false →
      ((s.retire c st d sig).sq c.queue).halted = (s.sq c.queue).halted) ∧
    (okStatus st = true → c.halts st = false) ∧ (okStatus st = false → c.continueOnError = false → c.halts st = true)

/-- NOP, FENCE_WAIT and FENCE_SIGNAL do nothing but complete with status 0; TIMESTAMP writes its START as 8 bytes at DST, and
with COUNTERS the sixteen counters of its core behind it, and completes with status 0, or with 0x0104 where DST is not 8-byte
aligned, or 0x0911 for a core outside its partition. A command whose work is done ends at once, unless an earlier command on
the same engine of a core it uses has writes to make: then it ends when its row comes again and none is left. A command of
which a host read failed ends with 0x0310. That the end comes with the row is the model's choice, log entry 60.
(spec/10_command_set.md, spec/16_counters_trace_tensor_watch.md, spec/08_memory_ordering.md.) -/
def Obligations.FrontEndCommandsComplete : Prop :=
  (∀ (s : State) (id : Nat) (c : Cmd),
    (Runs s id 0x00 c → exec (.nop id) s = .next (s.endRun c 0 0 none)) ∧
    (Runs s id 0x01 c → exec (.fenceWait id) s = .next (s.endRun c 0 0 none)) ∧
    (Runs s id 0x02 c → exec (.fenceSignal id) s = .next (s.endRun c 0 0 none)) ∧
    (Runs s id 0x03 c → c.f 32 0 64 % 8 = 0 → c.f 32 0 64 < 2 ^ 56 →
      (c.f 40 0 1 = 1 → (s.coresOf c.part).contains (c.f 41 0 5) = true) →
      ∀ s' : State, s.writeDva (s.accOf c 31 true) (c.f 32 0 64) (leBytes 8 c.start ++
          (if c.f 40 0 1 = 1 then (List.range 16).flatMap (fun k =>
            leBytes 8 (s.ctr (c.f 41 0 5) k + s.fld (Reg.ctrHi (c.f 41 0 5) k) 31 1 * 2 ^ 63)) else [])) = (s', none) →
        exec (.timestamp id) s = .next (s'.endRun c 0 0 none)) ∧
    (Runs s id 0x03 c → c.f 32 0 64 % 8 ≠ 0 → exec (.timestamp id) s = .next (s.endRun c 0x0104 0 none)) ∧
    (Runs s id 0x03 c → c.f 32 0 64 % 8 = 0 → c.f 32 0 64 < 2 ^ 56 → c.f 40 0 1 = 1 →
      (s.coresOf c.part).contains (c.f 41 0 5) = false → exec (.timestamp id) s = .next (s.endRun c 0x0911 0 none))) ∧
  (∀ (s : State) (c : Cmd) (st d : Nat) (dst : Option Nat),
    (s.releaseHeld c = false → isProducer c.op = false → s.endRun c st d dst = s.complete c st d) ∧
    (s.releaseHeld c = false → isProducer c.op = true → s.endRun c st d dst = s.finish c st d dst) ∧
    (s.releaseHeld c = true → s.endRun c st d dst = s.updCmd c.id fun c => { c with phase := .written, status := st, detail := d, dst }) ∧
    (s.releaseHeld c = true ↔ ∃ e ∈ s.fe.cmds, e.id < c.id ∧ e.part = c.part ∧ e.phase ≠ .dispatched ∧
      releaseEngine e.op = releaseEngine c.op ∧ ∃ k ∈ e.cores, k ∈ c.cores)) ∧
  (∀ (s : State) (id : Nat) (c : Cmd), s.cmd? id = some c → s.canRun c = true → c.op = 0x03 →
    (c.phase = .written → s.releaseHeld c = false → exec (.timestamp id) s = .next (s.complete c c.status c.detail)) ∧
    (c.phase = .written → s.releaseHeld c = true → exec (.timestamp id) s = .next s) ∧
    (c.phase ≠ .written → c.hostErr = true → exec (.timestamp id) s = .next (s.endRun c 0x0310 0 none)))

/-- STEP_BEGIN opens the step of its partition unless one is open, counts the step number up by 1 and, in its turn at the KV
manager, serves its list and completes with the number of entries not reserved, and completes with 0x0509 where a step is
open; STEP_END marks the step closing and joins the line of ends; once every command of the step has completed, the commit
adds RUN to LENGTH of every stepping sequence, makes it idle, closes the step and completes the STEP_END, and those that wait
behind it end with 0x050E; a STEP_END whose timer expires first ends with 0x0401 at its deadline, without a signal, and leaves
the step closing. (spec/11_steps_partitions_tenancy.md, spec/06_attention_and_kv_cache.md, spec/10_command_set.md.) -/
def Obligations.StepsOpenAndCommit : Prop :=
  (∀ (s : State) (id : Nat) (c : Cmd), Runs s id 0x04 c → c.phase = .started →
    let u := (s.openStep c).updCmd id fun c => { c with phase := .running }
    (s.fld (Reg.part c.part) 3 1 = 1 → exec (.stepBegin id) s = .next (s.endRun c 0x0509 0 none)) ∧
    (∀ es, s.fld (Reg.part c.part) 3 1 = 0 → s.reserveList c = .ok es →
      (u.kvTurn c = false → exec (.stepBegin id) s = .next (u.outerRuns id)) ∧
      (∀ s' c' bad, u.kvTurn c = true →
        u.reserveAll c (u.reg64 (Reg.stepLo c.part) (Reg.stepHi c.part)) [] es (c.f 40 0 64) 0 = (s', bad, none) →
        s'.cmd? id = some c' →
        exec (.stepBegin id) s = .next (s'.endRun c' (if bad = 0 then 0 else 0x0004) (min bad 0xFFFFFF) none))) ∧
    ((s.part c.part).watches = [] → c.part < 8 →
      (s.openStep c).fld (Reg.part c.part) 3 1 = 1 ∧
      (s.openStep c).reg64 (Reg.stepLo c.part) (Reg.stepHi c.part) =
        (s.reg64 (Reg.stepLo c.part) (Reg.stepHi c.part) + 1) % 2 ^ 64)) ∧
  (∀ (s : State) (id : Nat) (c : Cmd), Runs s id 0x05 c → c.phase = .started →
    (s.fld (Reg.part c.part) 3 1 = 0 → exec (.stepEnd id) s = .next (s.endRun c 0x050E 0 none)) ∧
    (s.fld (Reg.part c.part) 3 1 = 1 →
      ∃ u : State, exec (.stepEnd id) s = .next (u.outerRuns id) ∧ (u.part c.part).closing = true ∧
        (u.part c.part).ends = (s.part c.part).ends ++ [id] ∧
        ((s.part c.part).closing = false → (u.part c.part).awaits =
          (s.fe.cmds.filter (fun d => d.part == c.part && stepOps.contains d.op)).map (·.id)) ∧
        u = { s with parts := u.parts, fe := { s.fe with cmds := u.fe.cmds } })) ∧
  (∀ (s : State) (p id : Nat) (rest : List Nat) (c : Cmd), p < 8 → (s.part p).ends = id :: rest → s.cmd? id = some c →
    s.endReady c = true →
    (s.stepSettled p = true → s.inTime c = true → s.kvTurn c = true →
      exec (.stepCommit p) s = .next (((s.commitStep p).endRun c 0 0 none).endRest rest) ∧
      (s.commitStep p).fld (Reg.part p) 3 1 = 0 ∧ ((s.commitStep p).part p).closing = false) ∧
    (∀ t, c.infinite = false → c.deadline ≤ (s.atTime t).now → (s.stepSettled p = false ∨ c.deadline < (s.atTime t).now) →
      exec (.stepEndWaitTimeout p t) s =
        .next ((((s.atTime t).updPart p fun x => { x with ends := rest }).retire { c with waited := true } 0x0401 0 false
          (some c.deadline)).nextEnd p c.deadline))) ∧
  (∀ (s : State) (p q : Nat), (∀ e ∈ (s.part p).seqs, e.2 ≠ {}) → ((s.part p).seqs.map (·.1)).Nodup →
    ((s.commitStep p).seq p q).state = (if (s.seq p q).state = 2 then 1 else (s.seq p q).state) ∧
    ((s.commitStep p).seq p q).length = (if (s.seq p q).state = 2 then (s.seq p q).length + (s.seq p q).run else (s.seq p q).length))

/-- A QUEUE_CREATE whose queue ID lies in its creator's range, names no existing queue and has a block within the limits
makes the queue of the block, empty, in its partition's epoch, with its context in the device region of its stack, and
completes with status 0, every other queue and everything outside the front end as before; one whose ID is outside the range
completes with 0x0912, and one that names an existing queue with 0x0122. RESUME on a halted queue clears the halt and leaves
its head. (spec/09_host_interface_and_queues.md, spec/10_command_set.md.) -/
def Obligations.QueuesAreMade : Prop :=
  ∀ (s : State) (id : Nat) (c : Cmd) (b : List Byte), Runs s id 0x80 c → c.block = some b →
    (c.f 48 0 2 = 0 → s.inCreatorRange c (c.f 44 0 32) false = true → (s.sq (c.f 44 0 32)).enabled = false →
      sqBlockOk b (s.sqOwner (c.f 44 0 32)) = true → s.cqOwner (num b 12 2) = s.sqOwner (c.f 44 0 32) →
      (s.cq (num b 12 2)).enabled = true →
      ∃ t : State, exec (.queueCreate id) s = .next (t.endRun c 0 0 none) ∧ t = { s with fe := t.fe, mem := t.mem } ∧
        t.fe.cmds = s.fe.cmds ∧
        (∀ j, j ≠ c.f 44 0 32 → t.sq j = s.sq j ∧ t.tail j = s.tail j) ∧ (∀ j, t.cq j = s.cq j) ∧ t.tail (c.f 44 0 32) = 0 ∧
        t.sq (c.f 44 0 32) =
          { ring := num b 0 8, size := num b 8 1, cls := num b 9 1 % 4, counters := bitB (num b 9 1) 2,
            infinite := bitB (num b 9 1) 3, part := num b 10 1, asid := num b 11 1, cq := num b 12 2,
            epoch := s.epoch (num b 10 1), enabled := true, timeoutM1 := num b 16 4, fn := s.sqOwner (c.f 44 0 32) } ∧
        (∀ i, i < 64 → some (t.hbmByte (ctxDpa (c.f 44 0 32) + i)) = (t.sq (c.f 44 0 32)).bytes[i]?) ∧
        (∀ a, (a < ctxDpa (c.f 44 0 32) ∨ ctxDpa (c.f 44 0 32) + 64 ≤ a) → t.hbmByte a = s.hbmByte a)) ∧
    (c.f 48 0 2 = 1 → s.inCreatorRange c (c.f 44 0 32) true = true → (s.cq (c.f 44 0 32)).enabled = false → cqBlockOk b = true →
      ∃ t : State, exec (.queueCreate id) s = .next (t.endRun c 0 0 none) ∧ t = { s with fe := t.fe } ∧
        t.fe = { s.fe with cqs := t.fe.cqs } ∧ (∀ j, j ≠ c.f 44 0 32 → t.cq j = s.cq j) ∧
        t.cq (c.f 44 0 32) =
          { ring := num b 0 8, size := num b 8 1, vector := num b 10 2 % 2048, noIrq := bitB (num b 10 2) 15,
            modCount := num b 12 1, modTime := num b 14 2 % 1024, phase := true, armed := true, enabled := true,
            fn := s.cqOwner (c.f 44 0 32) }) ∧
    (c.f 48 0 2 = 2 → s.inCreatorRange c (c.f 44 0 32) false = true → (s.sq (c.f 44 0 32)).enabled = true →
      (s.sq (c.f 44 0 32)).halted = true → (s.sq (c.f 44 0 32)).lost = false →
      ∃ t : State, exec (.queueResume id) s = .next (t.endRun c 0 0 none) ∧ t = { s with fe := t.fe } ∧
        t.fe = { s.fe with sqs := t.fe.sqs } ∧ (∀ j, j ≠ c.f 44 0 32 → t.sq j = s.sq j) ∧
        t.sq (c.f 44 0 32) = { s.sq (c.f 44 0 32) with halted := false, haltStatus := 0 }) ∧
    (c.f 48 1 1 = 0 → s.inCreatorRange c (c.f 44 0 32) (c.f 48 0 1 == 1) = false →
      exec (.queueCreate id) s = .next (s.endRun c 0x0912 0 none)) ∧
    (c.f 48 0 2 = 0 → s.inCreatorRange c (c.f 44 0 32) false = true → (s.sq (c.f 44 0 32)).enabled = true →
      exec (.queueCreate id) s = .next (s.endRun c 0x0122 0 none))

/-- QUEUE_DESTROY of a submission queue stops fetching from it and waits; once nothing of the queue is in flight or
outstanding the queue is gone, its tail and pending bit clear, and the command completes with status 0; a completion queue
that no submission queue uses goes at once, and one in use completes with 0x0122. (spec/09_host_interface_and_queues.md,
spec/10_command_set.md.) -/
def Obligations.QueuesAreUnmade : Prop :=
  ∀ (s : State) (id : Nat) (c : Cmd), Runs s id 0x81 c → s.inCreatorRange c (c.f 44 0 32) (c.f 48 0 1 == 1) = true →
    (c.f 48 0 1 = 0 → (s.sq (c.f 44 0 32)).enabled = true →
      ∃ t : State, exec (.queueDestroy id) s = .next (t.outerRuns id) ∧ t = { s with fe := t.fe } ∧
        (∀ j, j ≠ c.f 44 0 32 → t.sq j = s.sq j) ∧
        t.sq (c.f 44 0 32) = { s.sq (c.f 44 0 32) with stopFetch := true } ∧
        t.cmd? id = some { c with phase := .running }) ∧
    (c.f 48 0 1 = 0 → c.phase = .running → (s.sq (c.f 44 0 32)).inFlight = (if c.queue = c.f 44 0 32 then 1 else 0) →
      (∀ r ∈ s.fe.ringReads, r.queue ≠ c.f 44 0 32) →
      ∃ t : State, exec (.queueDestroyDone id) s = .next (t.endRun c 0 0 none) ∧ t = { s with fe := t.fe, mem := t.mem } ∧
        (∀ j, j ≠ c.f 44 0 32 → t.sq j = s.sq j ∧ t.tail j = s.tail j) ∧ t.sq (c.f 44 0 32) = {} ∧ t.tail (c.f 44 0 32) = 0 ∧
        t.isPending (c.f 44 0 32) = false ∧ (∀ j, t.cq j = s.cq j) ∧ t.fe.cmds = s.fe.cmds ∧
        (∀ a, (a < ctxDpa (c.f 44 0 32) ∨ ctxDpa (c.f 44 0 32) + 64 ≤ a) → t.hbmByte a = s.hbmByte a)) ∧
    (c.f 48 0 1 = 1 → (s.cq (c.f 44 0 32)).enabled = true →
      ((∀ x ∈ s.fe.sqs, x.2.enabled = true → x.2.cq ≠ c.f 44 0 32) →
        ∃ t : State, exec (.queueDestroy id) s = .next (t.endRun c 0 0 none) ∧ t = { s with fe := t.fe } ∧
          t.fe = { s.fe with cqs := t.fe.cqs } ∧ t.cq (c.f 44 0 32) = {} ∧ (∀ j, j ≠ c.f 44 0 32 → t.cq j = s.cq j)) ∧
      ((∃ x ∈ s.fe.sqs, x.2.enabled = true ∧ x.2.cq = c.f 44 0 32) →
        exec (.queueDestroy id) s = .next (s.endRun c 0x0122 0 none)))

/-- Setting ENABLE after Eclosion makes the first submission and completion queue of the function's range, of kernel class
(admin class for the physical function), shows READY and status 0; where the sizes are out of range it makes none and shows
0x0122, and where a virtual function's partition is not configured 0x0913. Clearing ENABLE with nothing in flight removes
both queues and clears READY; with commands in flight it stops fetching and the queues go once they are done. NumVFs is what
VF_ENABLE writes. (spec/09_host_interface_and_queues.md.) -/
def Obligations.AdminQueuesStartAndEnd : Prop :=
  (∀ (s : State) (fn : Nat) (val : BitVec 32), Reachable s fn Reg.adminCtl → bitB val.toNat 30 = true → s.eclosed = true →
    s.fld (regKey fn Reg.adminCtl) 30 1 = 0 →
    ∃ t : State, exec (.adminEnable fn val) s = .next t ∧ t.fld (regKey fn Reg.adminCtl) 30 1 = 1 ∧
      t = { s with regs := t.regs, fe := t.fe, mem := t.mem } ∧
      ((fn ≠ 0 ∧ s.configured (fn - 1) = false) →
        t.fld (regKey fn Reg.adminStatus) 0 16 = 0x0913 ∧ t.fe = s.fe ∧ t.mem = s.mem) ∧
      ((fn = 0 ∨ s.configured (fn - 1) = true) →
        (bits val.toNat 0 5 < 4 ∨ 16 < bits val.toNat 0 5 ∨ bits val.toNat 8 5 < 4 ∨ 16 < bits val.toNat 8 5) →
        t.fld (regKey fn Reg.adminStatus) 0 16 = 0x0122 ∧ t.fe = s.fe ∧ t.mem = s.mem) ∧
      ((fn = 0 ∨ s.configured (fn - 1) = true) → 4 ≤ bits val.toNat 0 5 → bits val.toNat 0 5 ≤ 16 → 4 ≤ bits val.toNat 8 5 →
        bits val.toNat 8 5 ≤ 16 → (s.sq (s.adminIds fn).1).enabled = false → (s.cq (s.adminIds fn).2).enabled = false →
        t.fld (regKey fn Reg.adminStatus) 0 16 = 0 ∧ t.fld (regKey fn Reg.adminCtl) 31 1 = 1 ∧
        (t.sq (s.adminIds fn).1).enabled = true ∧ (t.sq (s.adminIds fn).1).cls = (if fn = 0 then 0 else 1) ∧
        (t.sq (s.adminIds fn).1).part = (if fn = 0 then bits val.toNat 27 3 else fn - 1) ∧
        (t.sq (s.adminIds fn).1).size = bits val.toNat 0 5 ∧ (t.sq (s.adminIds fn).1).cq = (s.adminIds fn).2 ∧
        (t.sq (s.adminIds fn).1).asid = 0 ∧ (t.cq (s.adminIds fn).2).enabled = true ∧
        (t.cq (s.adminIds fn).2).size = bits val.toNat 8 5 ∧ (t.cq (s.adminIds fn).2).vector = bits val.toNat 16 11 ∧
        (∀ j, j ≠ (s.adminIds fn).1 → t.sq j = s.sq j) ∧ (∀ j, j ≠ (s.adminIds fn).2 → t.cq j = s.cq j) ∧
        (∀ a, (a < ctxDpa (s.adminIds fn).1 ∨ ctxDpa (s.adminIds fn).1 + 64 ≤ a) → t.hbmByte a = s.hbmByte a))) ∧
  (∀ (s : State) (fn : Nat) (val : BitVec 32), Reachable s fn Reg.adminCtl → bitB val.toNat 30 = false →
    s.fld (regKey fn Reg.adminCtl) 31 1 = 1 → (s.sq (s.adminIds fn).1).enabled = true →
    ((s.sq (s.adminIds fn).1).inFlight = 0 → (∀ r ∈ s.fe.ringReads, r.queue ≠ (s.adminIds fn).1) →
      ∃ t : State, exec (.adminDisable fn val) s = .next t ∧ t.fld (regKey fn Reg.adminCtl) 30 1 = 0 ∧
        t.fld (regKey fn Reg.adminCtl) 31 1 = 0 ∧ t.sq (s.adminIds fn).1 = {} ∧ t.cq (s.adminIds fn).2 = {} ∧
        (∀ j, j ≠ (s.adminIds fn).1 → t.sq j = s.sq j) ∧ (∀ j, j ≠ (s.adminIds fn).2 → t.cq j = s.cq j) ∧
        t = { s with regs := t.regs, fe := t.fe, mem := t.mem }) ∧
    ((s.sq (s.adminIds fn).1).inFlight ≠ 0 →
      ∃ t : State, exec (.adminDisable fn val) s = .next t ∧ t.fld (regKey fn Reg.adminCtl) 30 1 = 0 ∧
        t.fld (regKey fn Reg.adminCtl) 31 1 = 1 ∧
        t.sq (s.adminIds fn).1 = { s.sq (s.adminIds fn).1 with stopFetch := true, adminGone := true } ∧
        t = { s with regs := t.regs, fe := { s.fe with sqs := t.fe.sqs } })) ∧
  (∀ (s : State) (n : Nat), n ≤ 8 → s.alive = true → exec (.vfEnable n) s = .next { s with fe := { s.fe with numVfs := n } })

/-- A write of a vector's mask bit stores it; unmasking it, where the vector was pending and its function is neither masked
nor waiting for a stream, clears the pending bit and sends its message, and masking it sends nothing; the function mask
takes what is written to it; a function's stream goes live once key sets were programmed, after which nothing is held for
that function; IDE_KM in an established session of the physical function's instance records the key set; IDE_REQUIRED takes
9 bits; DOE discovery names three protocols; DOE abort drops what the instance holds.
(spec/09_host_interface_and_queues.md, spec/14_boot_measurement_attestation.md.) -/
def Obligations.FunctionsVectorsAndStreams : Prop :=
  (∀ (s : State) (fn v : Nat) (mask : Bool), v < 2048 → Reachable s fn (msixBase + 16 * v + 12) →
    ∃ t : State, exec (.msixVectorUnmask fn (some v) mask) s = .next t ∧
      t.fld (regKey fn (msixBase + 16 * v + 12)) 0 1 = b2n mask ∧
      t = { s with regs := t.regs, out := t.out, fe := { s.fe with heldIde := t.fe.heldIde } } ∧
      (mask = false → s.fld (regKey fn (pbaBase + v / 32 * 4)) (v % 32) 1 = 1 → s.fe.fnMask.get (fun _ => false) fn = false →
        s.ideBlocked fn = false →
        t.out = s.out ++ [.msix fn v] ∧ t.fld (regKey fn (pbaBase + v / 32 * 4)) (v % 32) 1 = 0) ∧
      (mask = true ∨ s.fld (regKey fn (pbaBase + v / 32 * 4)) (v % 32) 1 = 0 → t.out = s.out)) ∧
  (∀ (s : State) (fn : Nat) (mask : Bool), fn < 9 → s.active = true → s.fnExists fn = true →
    (∃ t : State, exec (.msixVectorUnmask fn none mask) s = .next t ∧ t.fe.fnMask.get (fun _ => false) fn = mask ∧
      (mask = true → t.out = s.out ∧ t.regs = s.regs)) ∧
    (s.fe.ideKeys.get (fun _ => 0) fn ≠ 0 → ∃ t : State, exec (.ideStreamLive fn) s = .next t ∧ t.ideBlocked fn = false ∧
      (∀ x ∈ t.fe.heldIde, x.1 ≠ fn) ∧ (∀ o, (fn, o) ∈ s.fe.heldIde → o ∈ t.out))) ∧
  (∀ (s : State) (fn : Nat) (val : BitVec 32), Reachable s fn Reg.ideRequired →
    ∃ t : State, exec (.ideRequiredWrite fn val) s = .next t ∧ t.fld Reg.ideRequired 0 9 = val.toNat % 512 ∧
      (∀ x ∈ t.fe.heldIde, t.ideBlocked x.1 = true)) ∧
  (∀ (s : State) (sess stream keySet : Nat), stream < 9 → keySet < 2 → Answers s 0 → s.established 0 sess = true →
    ∃ t : State, exec (.ideKm 0 sess stream keySet) s = .next t ∧ t = { s with fe := { s.fe with ideKeys := t.fe.ideKeys }, out := t.out } ∧
      t.fe.ideKeys.get (fun _ => 0) stream = s.fe.ideKeys.get (fun _ => 0) stream ||| 2 ^ keySet) ∧
  (∀ (s : State) (fn index : Nat), fn < 9 → s.alive = true → s.fnExists fn = true →
    (∃ t : State, exec (.doeAbort fn) s = .next t ∧ t = { s with boot := { s.boot with inbox := t.boot.inbox, large := t.boot.large } } ∧
      (t.boot.inbox.get (fun _ => {}) fn).data = [] ∧ (t.boot.large.get (fun _ => {}) fn).data = []) ∧
    (index < 3 → exec (.doeDiscovery fn index) s = .next (s.emit (.reply fn 0
      [1, 0, BitVec.ofNat 8 index, BitVec.ofNat 8 (if index = 2 then 0 else index + 1)]))))

/-- With the window open onto a partition, a BAR4 write within one 64-byte unit of sound HBM that no sealed range covers
stores its bytes at the partition physical address BASE times 2 to the 30 plus the offset, and the same read returns them;
with the window closed a write has no effect and a read returns zeros; during a stop both wait until release. BAR4_WINDOW
takes PARTITION, ENABLE and BASE, but ignores a write that would open it onto a partition without HOST_WINDOW.
(spec/09_host_interface_and_queues.md, spec/15_clocks_resets_global_stop.md.) -/
def Obligations.HostWindowReachesPartitionMemory : Prop :=
  (∀ (s : State) (off d : Nat) (bs : List Byte), s.alive = true → s.stopped = false → s.hasBar4 = true → s.fld Reg.bar4 3 1 = 1 →
    0 < bs.length → off % 64 + bs.length ≤ 64 → off + bs.length ≤ 2 ^ 36 →
    s.sealedHit (s.fld Reg.bar4 0 3) (s.fld Reg.bar4 16 9 * 2 ^ 30 + off) bs.length = false →
    s.dpaOf (s.fld Reg.bar4 0 3) (s.fld Reg.bar4 16 9 * 2 ^ 30 + off) = some d → s.offline (d / stackBase 1) = false →
    (∀ w, d / 64 * 4 ≤ w → w < d / 64 * 4 + 4 → s.hbmBad w = false) →
    ∃ t : State, exec (.bar4Write off bs) s = .next t ∧ (∀ i, i < bs.length → some (t.hbmByte (d + i)) = bs[i]?) ∧
      (∀ a, (a < d ∨ d + bs.length ≤ a) → t.hbmByte a = s.hbmByte a) ∧
      t = { s with regs := t.regs, mem := { s.mem with hbm := t.mem.hbm, hbmBad := t.mem.hbmBad, hbmOne := t.mem.hbmOne } }) ∧
  (∀ (s : State) (off len d : Nat), s.active = true → s.hasBar4 = true → s.fld Reg.bar4 3 1 = 1 →
    0 < len → off % 64 + len ≤ 64 → off + len ≤ 2 ^ 36 →
    s.sealedHit (s.fld Reg.bar4 0 3) (s.fld Reg.bar4 16 9 * 2 ^ 30 + off) len = false →
    s.dpaOf (s.fld Reg.bar4 0 3) (s.fld Reg.bar4 16 9 * 2 ^ 30 + off) = some d → s.offline (d / stackBase 1) = false →
    (∀ w, d / 64 * 4 ≤ w → w < d / 64 * 4 + 4 → s.hbmBad w = false) →
    exec (.bar4Read off len) s = .next (s.emit (.bar4Data (some ((List.range len).map (fun i => s.hbmByte (d + i))))))) ∧
  (∀ (s : State) (off len : Nat) (bs : List Byte), s.active = true → s.fld Reg.bar4 3 1 = 0 → off + bs.length ≤ 2 ^ 36 →
    off + len ≤ 2 ^ 36 → exec (.bar4Write off bs) s = .next s ∧
      exec (.bar4Read off len) s = .next (s.emit (.bar4Data (some (List.replicate len 0))))) ∧
  (∀ (s : State) (off len : Nat) (bs : List Byte), s.alive = true → s.stopped = true → off + bs.length ≤ 2 ^ 36 →
    off + len ≤ 2 ^ 36 →
    exec (.bar4Write off bs) s = .next { s with fe := { s.fe with stopHeld := s.fe.stopHeld ++ [.bar4Write off bs] } } ∧
      exec (.bar4Read off len) s = .next { s with fe := { s.fe with stopHeld := s.fe.stopHeld ++ [.bar4Read off len] } }) ∧
  (∀ (s : State) (fn : Nat) (val : BitVec 32), Reachable s fn Reg.bar4 →
    (bitB val.toNat 3 = true → s.fld (Reg.part (bits val.toNat 0 3)) 13 1 = 0 → exec (.bar4WindowWrite fn val) s = .next s) ∧
    ((bitB val.toNat 3 = false ∨ s.fld (Reg.part (bits val.toNat 0 3)) 13 1 = 1) →
      ∃ t : State, exec (.bar4WindowWrite fn val) s = .next t ∧ s.onlyRegs t [Reg.bar4] ∧ t.fld Reg.bar4 0 4 = val.toNat % 16 ∧
        t.fld Reg.bar4 16 9 = bits val.toNat 16 9))

/-- A write within one 64-byte unit of an online stack, of the partition's epoch, stores exactly its bytes with valid check
bits; a whole unit heals its poisoned words; a part of a unit with a poisoned word stores nothing, poisons the four words of
the unit and fails with 0x0310; one to an offline stack fails with 0x0311; one of an older epoch changes nothing but the count
of stale drops. A read that meets a poisoned word fails with 0x0310 and names the word, and otherwise returns the bytes.
(spec/07_memory_system.md, spec/08_memory_ordering.md, spec/11_steps_partitions_tenancy.md.) -/
def Obligations.MemoryWritesStoreBytes : Prop :=
  ∀ (s : State) (a : Acc) (dva dpa : Nat) (bs : List Byte), 0 < bs.length → dpa % 64 + bs.length ≤ 64 →
    (a.epoch = s.epoch a.part → s.offline (dpa / stackBase 1) = false →
      (bs.length = 64 ∨ ∀ w, dpa / 64 * 4 ≤ w → w < dpa / 64 * 4 + 4 → s.hbmBad w = false) →
      ∃ t, s.writeHbm a dva dpa bs = (t, none) ∧ (∀ i, i < bs.length → some (t.hbmByte (dpa + i)) = bs[i]?) ∧
        (∀ x, (x < dpa ∨ dpa + bs.length ≤ x) → t.hbmByte x = s.hbmByte x) ∧
        (bs.length = 64 → ∀ w, dpa / 64 * 4 ≤ w → w < dpa / 64 * 4 + 4 → t.hbmBad w = false) ∧
        (∀ w, (w < dpa / 64 * 4 ∨ dpa / 64 * 4 + 4 ≤ w) → t.hbmBad w = s.hbmBad w) ∧
        (∀ i, i < bs.length → t.mem.hbmOne.get (fun _ => false) ((dpa + i) / 16) = false) ∧
        t = { s with regs := t.regs, mem := { s.mem with hbm := t.mem.hbm, hbmBad := t.mem.hbmBad, hbmOne := t.mem.hbmOne } }) ∧
    (a.epoch = s.epoch a.part → s.offline (dpa / stackBase 1) = false → bs.length < 64 →
      (∃ w, dpa / 64 * 4 ≤ w ∧ w < dpa / 64 * 4 + 4 ∧ s.hbmBad w = true) →
      ∃ t e, s.writeHbm a dva dpa bs = (t, some e) ∧ e.status = 0x0310 ∧ (∀ x, t.hbmByte x = s.hbmByte x) ∧
        (∀ w, dpa / 64 * 4 ≤ w → w < dpa / 64 * 4 + 4 → t.hbmBad w = true) ∧
        t = { s with mem := { s.mem with hbmBad := t.mem.hbmBad } }) ∧
    (a.epoch = s.epoch a.part → s.offline (dpa / stackBase 1) = true →
      ∃ e, s.writeHbm a dva dpa bs = (s, some e) ∧ e.status = 0x0311) ∧
    (a.epoch ≠ s.epoch a.part → ∃ t, s.writeHbm a dva dpa bs = (t, none) ∧ s.onlyRegs t [Reg.staleDrops a.part] ∧
      t.fld (Reg.staleDrops a.part) 0 32 = min (s.fld (Reg.staleDrops a.part) 0 32 + 1) (2 ^ 32 - 1)) ∧
    (s.offline (dpa / stackBase 1) = false →
      ((∀ w, dpa / 64 * 4 ≤ w → w < dpa / 64 * 4 + 4 → s.hbmBad w = false) →
        s.readHbm a dva dpa bs.length = .ok ((List.range bs.length).map (fun i => s.hbmByte (dpa + i)))) ∧
      (s.hbmBad (dpa / 16) = true → ∃ e, s.readHbm a dva dpa bs.length = .error e ∧ e.status = 0x0310 ∧
        e.dpa = some (dpa / 16 * 16)))

/-- An address without a mapping fails with 0x0301; a write to a read-only page, or to a sealed range, with 0x0302; a user
access to a page without USER with 0x0303; a host page for an engine that may not reach it, or a read of a sealed range, with
0x0304; otherwise the address is its mapping's target, in the partition's own stacks or in host memory. What the mapping of a
page says is what a walk of the partition's tables in HBM finds: from table to table by nine bits of the address at each
level, a leaf at level 1 or 0; an entry that is not valid ends it with 0x0301, one on an offline stack with 0x0311, one that
is uncorrectable with 0x0310. That an address space without a root table has what its list of mappings says is the model's
form, log entry 12. (spec/07_memory_system.md, spec/11_steps_partitions_tenancy.md.) -/
def Obligations.TranslationFollowsRights : Prop :=
  (∀ (s : State) (a : Acc) (dva n : Nat) (write : Bool),
    (s.mapping a dva = none → ∃ e, s.translate a dva n write = .error e ∧ e.status = 0x0301) ∧
    (∀ m0 e, s.mapping a dva = some m0 → s.walked a m0 dva write = .error e → s.translate a dva n write = .error e) ∧
    (∀ m0 m, s.mapping a dva = some m0 → s.walked a m0 dva write = .ok m → ∀ x, x = m.target + (dva - m.dva) →
      (write = true → m.write = false → ∃ e, s.translate a dva n write = .error e ∧ e.status = 0x0302) ∧
      (write = true → m.write = true → m.host = false → s.sealedHit a.part x n = true →
        ∃ e, s.translate a dva n write = .error e ∧ e.status = 0x0302) ∧
      ((write = false ∨ (m.write = true ∧ (m.host = true ∨ s.sealedHit a.part x n = false))) → a.user = true → m.user = false →
        ∃ e, s.translate a dva n write = .error e ∧ e.status = 0x0303) ∧
      ((write = true → m.write = true) → (a.user = true → m.user = true) → m.host = true →
        (a.hostOk = false → ∃ e, s.translate a dva n write = .error e ∧ e.status = 0x0304) ∧
        (a.hostOk = true → s.ideBlocked a.fn = false → s.translate a dva n write = .ok (.host x, m.nocache))) ∧
      ((write = true → m.write = true) → (a.user = true → m.user = true) → m.host = false →
        (s.sealedHit a.part x n = true → write = false → a.sealedRd = false →
          ∃ e, s.translate a dva n write = .error e ∧ e.status = 0x0304) ∧
        (s.sealedHit a.part x n = false →
          (∀ d, s.dpaOf a.part x = some d → s.translate a dva n write = .ok (.hbm d x, m.nocache)) ∧
          (s.dpaOf a.part x = none → ∃ e, s.translate a dva n write = .error e ∧ e.status = 0x0301))))) ∧
  (∀ (s : State) (a : Acc) (dva : Nat) (write : Bool) (m0 : Mapping),
    ((s.part a.part).tables.find? (fun t => t.asid == a.asid && t.level == 4) = none → s.walked a m0 dva write = .ok m0) ∧
    (∀ t, (s.part a.part).tables.find? (fun t => t.asid == a.asid && t.level == 4) = some t →
      (∀ e big, s.walk a.part dva 4 ((s.part a.part).ptPool + 4096 * t.num) = .ok (e, big) → ∃ m, s.walked a m0 dva write = .ok m ∧
        m.target = e / 4096 % 2 ^ 40 * 4096 ∧ (m.write = true ↔ e / 4 % 2 = 1) ∧ (m.user = true ↔ e / 8 % 2 = 1) ∧
        (m.host = true ↔ e / 16 % 4 = 1) ∧ (m.nocache = true ↔ e / 64 % 2 = 1) ∧
        m.dva = dva / (if big then 0x200000 else 0x1000) * (if big then 0x200000 else 0x1000)) ∧
      (∀ st bad, s.walk a.part dva 4 ((s.part a.part).ptPool + 4096 * t.num) = .error (st, bad) →
        ∃ e, s.walked a m0 dva write = .error e ∧ e.status = st ∧ e.dpa = bad))) ∧
  (∀ (s : State) (p dva level base d e : Nat),
    s.dpaOf p (base + 8 * (dva / 2 ^ (12 + 9 * level) % 512)) = some d → e = leNat ((List.range 8).map (fun i => s.hbmByte (d + i))) →
    (s.offline (d / stackBase 1) = true → s.walk p dva level base = .error (0x0311, none)) ∧
    (s.offline (d / stackBase 1) = false → s.hbmBad (d / 16) = true →
      s.walk p dva level base = .error (0x0310, some (d / 16 * 16))) ∧
    (s.offline (d / stackBase 1) = false → s.hbmBad (d / 16) = false →
      (e % 2 = 0 → s.walk p dva level base = .error (0x0301, none)) ∧
      (e % 2 = 1 → e / 2 % 2 = 1 → level ≤ 1 → s.walk p dva level base = .ok (e, level == 1)) ∧
      (e % 2 = 1 → ((e / 2 % 2 = 1 ∧ 2 ≤ level) ∨ (e / 2 % 2 = 0 ∧ level = 0)) → s.walk p dva level base = .error (0x0301, none)) ∧
      (∀ l, level = l + 1 → e % 2 = 1 → e / 2 % 2 = 0 →
        s.walk p dva level base = s.walk p dva l (e / 4096 % 2 ^ 40 * 4096))))

/-- Every partition physical address below the partition's memory lies in a stack in service of the partition, below the part
that belongs to the device; different addresses lie at different places; and partitions whose stacks differ share no place.
(spec/07_memory_system.md, spec/11_steps_partitions_tenancy.md.) -/
def Obligations.PartitionsShareNoMemory : Prop :=
  (∀ (s : State) (p x d : Nat), s.dpaOf p x = some d →
    (d / stackBase 1) ∈ s.stacksOf p ∧ d % stackBase 1 < usable ∧ x < (s.stacksOf p).length * usable) ∧
  (∀ (s : State) (p x : Nat), x < (s.stacksOf p).length * usable → ∃ d, s.dpaOf p x = some d) ∧
  (∀ (s : State) (p x y d : Nat), s.dpaOf p x = some d → s.dpaOf p y = some d → x = y) ∧
  (∀ (s : State) (p q x y d e : Nat), (∀ st ∈ s.stacksOf p, st ∉ s.stacksOf q) → s.dpaOf p x = some d → s.dpaOf q y = some e →
    d ≠ e)

/-- DMA_COPY of 1 to 2 to the 40 bytes between operands that do not overlap, with an engine in service that serves fewer than
four earlier commands, and its source readable, writes the source's bytes at the destination and ends with status 0; an
overlap, or no bytes, ends it with 0x0104; an engine with four commands lets it wait. MEM_FILL of a multiple of 8 bytes writes
its pattern. A second failure of the check marks the engine faulty and ends the command with 0x0801; so does a second failure
of a datapath, without a faulty engine; an engine out of service takes no command. (spec/10_command_set.md,
spec/11_steps_partitions_tenancy.md, spec/12_integrity_and_recovery.md.) -/
def Obligations.CopiesAndFills : Prop :=
  (∀ (s : State) (id : Nat) (c : Cmd) (ls ld : Loc), Runs s id 0x10 c → s.parseLoc c.part (c.f 32 0 64) true = .ok ls →
    s.parseLoc c.part (c.f 40 0 64) true = .ok ld →
    ((c.f 48 0 64 = 0 ∨ ls.overlaps ld (c.f 48 0 64) = true) → ∀ chk,
      exec (.dmaCopy id chk) s = .next (s.endRun c 0x0104 0 none)) ∧
    (0 < c.f 48 0 64 → c.f 48 0 64 ≤ 2 ^ 40 → ls.fits (c.f 48 0 64) = true → ld.fits (c.f 48 0 64) = true →
      ls.overlaps ld (c.f 48 0 64) = false →
      (∀ st, s.dmaCore c (c.f 56 0 5) (c.f 32 0 64) (c.f 40 0 64) = .error st →
        ∀ chk, exec (.dmaCopy id chk) s = .next (s.endRun c st 0 none)) ∧
      (∀ core, s.dmaCore c (c.f 56 0 5) (c.f 32 0 64) (c.f 40 0 64) = .ok core →
        (s.dmaTurn c core = false → ∀ chk, exec (.dmaCopy id chk) s = .next s) ∧
        (s.dmaTurn c core = true → c.missing (s.locHost (s.accOf c core true) ls (c.f 48 0 64)) = [] →
          (∀ bs s', (s.touch id core).readLoc (s.accOf c core true) ls (c.f 48 0 64) = .ok bs →
            (s.touch id core).writeLoc (s.accOf c core true) ld bs = (s', none) →
            ∃ c', s'.cmd? id = some c' ∧ c'.pkt = c.pkt ∧ bs.length = c.f 48 0 64 ∧
              exec (.dmaCopy id .ok) s = .next (s'.endRun c' 0 0 ld.watched)) ∧
          (∃ (s' : State) (c' : Cmd), exec (.dmaCopy id .permanent) s = .next (s'.endRun c' 0x0801 0 none) ∧ c'.pkt = c.pkt ∧
            s'.dmaServes core = false) ∧
          (∀ path, ∃ (s' : State) (c' : Cmd), exec (.dmaCopy id (.path path true)) s = .next (s'.endRun c' 0x0801 0 none) ∧
            c'.pkt = c.pkt ∧ s'.dmaServes core = true))))) ∧
  (∀ (s : State) (id : Nat) (c : Cmd) (ld : Loc) (core : Nat) (s' : State), Runs s id 0x12 c →
    s.parseLoc c.part (c.f 32 0 64) true = .ok ld → c.f 40 0 64 % 8 = 0 → ld.fits (c.f 40 0 64) = true →
    s.dmaCore c (c.f 56 0 5) (c.f 32 0 64) (c.f 32 0 64) = .ok core → s.dmaTurn c core = true →
    (s.touch id core).writeLoc (s.accOf c core true) ld
      ((List.range (c.f 40 0 64)).map (fun i => BitVec.ofNat 8 (c.f 48 0 64 / 2 ^ (8 * (i % 8))))) = (s', none) →
    ∃ c', s'.cmd? id = some c' ∧ c'.pkt = c.pkt ∧ exec (.memFill id .ok) s = .next (s'.endRun c' 0 0 ld.watched)) ∧
  (∀ (s : State) (c : Cmd) (field src dst : Nat), s.dmaServes (s.engineCore c.part field src dst) = false →
    (s.coresOf c.part).contains (s.engineCore c.part field src dst) = true → s.dmaCore c field src dst = .error 0x0801)

/-- With operands that pass the checks of the block, an engine in service and free to take it, its source readable, every
table that its source's blocks name in a decode slot, and its destination writable, DMA_CONVERT and ROTATE write the conversion
of the source's rows, rotated in runs of 2 to the LOG2N elements, and end with status 0, 0x0002 with the conversion flags in
DETAIL, or 0x0111 under STRICT_NAN; COMPRESS writes the raw bytes of the rows in blocks and copies the scale plane. ROTATE on a
vector engine out of service ends with 0x0821. (spec/10_command_set.md, spec/02_number_formats_and_quantisation.md,
spec/04_compression_and_sparsity.md, spec/05_vector_engine.md.) -/
def Obligations.ConvertsRotatesCompresses : Prop :=
  (∀ (s : State) (id : Nat) (c : Cmd) (m : Move) (core : Nat) (s1 : State) (cd : Option CTensor) (rows : List (List Val))
    (mask : Nat → Bool) (x : Conv) (fl : Nat) (s' : State),
    ((Runs s id 0x11 c ∧ s.dmaTurn c core = true) ∨
      (Runs s id 0x23 c ∧ s.vecTurn c [core] = true ∧ s.fld (Reg.vecFault core) 0 1 = 0)) →
    s.parseMove c = .ok m →
    s.dmaCore c (num (c.block.getD []) 74 1 % 32) (num (c.block.getD []) 0 8) (num (c.block.getD []) 32 8) = .ok core →
    c.missing (s.tensorHost (s.accOf c core true) m.src ++ (if m.dst.packed then s.locHost (s.accOf c core true) m.dst.loc 64 else []) ++
      (if m.mask = 0 ∨ m.log2n = 0 then [] else s.hostRanges (s.accOf c core true) m.mask (2 ^ m.log2n / 8))) = [] →
    s1 = (if c.phase = .started then
      (s.touch id core).runLane core (pathLane id) ((s.touch id core).pathTables (s.accOf c core true) m.src) else s.touch id core) →
    (s1.core core).lanes.get (fun _ => []) (pathLane id) = [] →
    s1.openTensor (s.accOf c core true) m.dst = .ok cd → s1.readTensor (s.accOf c core true) m.src = .ok rows →
    s1.signMask (s.accOf c core true) m = .ok mask →
    x = convTensor m.dst m.rnd m.ieee (rows.map (rotateRow m.log2n mask)) →
    fl = x.flags ||| s1.scaleFlag (s.accOf c core true) m.src →
    (s1.noteConv core fl x.lost).storeConv (s.accOf c core true) m.dst cd x = (s', none) →
    ∃ (t : State) (c' : Cmd), c'.pkt = c.pkt ∧ ((fl = 0 ∨ c.strictNan = false ∨ bitB fl 2 = false) → t = s') ∧
      (Runs s id 0x11 c → exec (.dmaConvert id .ok) s = .next (t.endRun c'
        (if fl = 0 then 0 else if c.strictNan = true ∧ bitB fl 2 = true then 0x0111 else 0x0002)
        (if fl = 0 ∨ (c.strictNan = true ∧ bitB fl 2 = true) then 0 else fl) (if m.dst.packed then none else m.dst.loc.watched))) ∧
      (Runs s id 0x23 c → exec (.rotate id .ok) s = .next (t.endRun c'
        (if fl = 0 then 0 else if c.strictNan = true ∧ bitB fl 2 = true then 0x0111 else 0x0002)
        (if fl = 0 ∨ (c.strictNan = true ∧ bitB fl 2 = true) then 0 else fl) (if m.dst.packed then none else m.dst.loc.watched)))) ∧
  (∀ (s : State) (id : Nat) (c : Cmd) (m : Move) (core : Nat) (chk : Check), Runs s id 0x23 c → s.parseMove c = .ok m →
    s.dmaCore c (num (c.block.getD []) 74 1 % 32) (num (c.block.getD []) 0 8) (num (c.block.getD []) 32 8) = .ok core →
    s.fld (Reg.vecFault core) 0 1 = 1 → exec (.rotate id chk) s = .next (s.endRun c 0x0821 0 none)) ∧
  (∀ (s : State) (id : Nat) (c : Cmd) (m : Move) (core : Nat) (s1 : State) (cs cd : Option CTensor) (rows : List (List Byte))
    (s' : State), Runs s id 0x30 c → s.parseMove c = .ok m →
    s.dmaCore c (num (c.block.getD []) 74 1 % 32) (num (c.block.getD []) 0 8) (num (c.block.getD []) 32 8) = .ok core →
    s.dmaTurn c core = true →
    c.missing (s.tensorHost (s.accOf c core true) m.src ++ s.locHost (s.accOf c core true) m.dst.loc 64 ++
      (if m.mask = 0 ∨ m.log2n = 0 then [] else s.hostRanges (s.accOf c core true) m.mask (2 ^ m.log2n / 8))) = [] →
    s1 = (if c.phase = .started then
      (s.touch id core).runLane core (pathLane id) ((s.touch id core).pathTables (s.accOf c core true) m.src) else s.touch id core) →
    (s1.core core).lanes.get (fun _ => []) (pathLane id) = [] →
    s1.openTensor (s.accOf c core true) m.src = .ok cs → s1.openTensor (s.accOf c core true) m.dst = .ok cd →
    s1.rawRows (s.accOf c core true) m.src cs (List.range m.src.rows) = .ok rows →
    s1.storeBytes (s.accOf c core true) m.dst cd rows = (s', none) →
    (m.src.sf = 0 → ∃ c', s'.cmd? id = some c' ∧ c'.pkt = c.pkt ∧ exec (.compress id .ok) s = .next (s'.endRun c' 0 0 none)) ∧
    (m.src.sf ≠ 0 → ∀ b s'', s'.readDva (s.accOf c core true) m.src.scale m.src.scaleBytes = .ok b →
      s'.writeDva (s.accOf c core true) m.dst.scale b = (s'', none) →
      ∃ c', s''.cmd? id = some c' ∧ c'.pkt = c.pkt ∧ exec (.compress id .ok) s = .next (s''.endRun c' 0 0 none))) ∧
  (∀ (s : State) (id : Nat) (c : Cmd) (m : Move) (core : Nat) (chk : Check), s.parseMove c = .ok m →
    s.dmaCore c (num (c.block.getD []) 74 1 % 32) (num (c.block.getD []) 0 8) (num (c.block.getD []) 32 8) = .ok core →
    (Runs s id 0x11 c → s.dmaTurn c core = false → exec (.dmaConvert id chk) s = .next s) ∧
    (Runs s id 0x30 c → s.dmaTurn c core = false → exec (.compress id chk) s = .next s) ∧
    (Runs s id 0x23 c → s.vecTurn c [core] = false → s.fld (Reg.vecFault core) 0 1 = 0 → exec (.rotate id chk) s = .next s))

/-- A dirty line whose words are sound goes to HBM as its dirty bytes alone; a sweep of the named cores that meets no bad
word ends with status 0; CACHE_INVALIDATE with DISCARD of a whole cache empties the cache of every core it names; a core
outside the partition ends with 0x0911. (spec/07_memory_system.md, spec/08_memory_ordering.md.) -/
def Obligations.CachesWriteBackAndDrop : Prop :=
  (∀ (s : State) (p core : Nat) (l : Line), s.offline (l.unit * 64 / stackBase 1) = false →
    (∀ w, l.unit * 4 ≤ w → w < l.unit * 4 + 4 → s.hbmBad w = false) →
    ∃ t, s.putUnit p core l = (t, none) ∧
      (∀ i, i < 64 → t.hbmByte (l.unit * 64 + i) = if bitB l.dirty i then l.data[i]?.getD 0 else s.hbmByte (l.unit * 64 + i)) ∧
      (∀ x, (x < l.unit * 64 ∨ l.unit * 64 + 64 ≤ x) → t.hbmByte x = s.hbmByte x) ∧
      (l.dirty ≠ 0 → l.bad = 0 → s.writeLine p core l = (t.count core 0x57 1, none)) ∧
      (l.dirty = 0 → s.writeLine p core l = (s, none))) ∧
  (∀ (s : State) (id : Nat) (c : Cmd) (inval : Bool), Runs s id (if inval then 0x14 else 0x13) c →
    ∀ i, i = (if inval then Instr.cacheInvalidate id else .cacheWriteback id) →
    ((∃ k ∈ s.coreMask c.part (c.f 48 0 32), k ∉ s.coresOf c.part) → exec i s = .next (s.endRun c 0x0911 0 none)) ∧
    ((∀ k ∈ s.coreMask c.part (c.f 48 0 32), k ∈ s.coresOf c.part) →
      (c.f 40 0 64 = 0 ∨ (c.f 32 0 64 < 2 ^ 56 ∧ c.f 32 0 64 + c.f 40 0 64 ≤ 2 ^ 56)) →
      (∀ k ∈ s.coreMask c.part (c.f 48 0 32), ∀ l ∈ (s.core k).cache, l.dirty = 0) →
      ∃ (t : State) (c' : Cmd), exec i s = .next (t.endRun c' 0 0 none) ∧ c'.pkt = c.pkt ∧
        (inval = true → c.f 40 0 64 = 0 → ∀ k ∈ s.coreMask c.part (c.f 48 0 32), (t.core k).cache = []) ∧
        (inval = false → ∀ k, (t.core k).cache = (s.core k).cache)) ∧
    ((∀ k ∈ s.coreMask c.part (c.f 48 0 32), k ∈ s.coresOf c.part) → inval = true → c.f 52 0 1 = 1 → c.f 40 0 64 = 0 →
      ∃ (t : State) (c' : Cmd), exec i s = .next (t.endRun c' 0 0 none) ∧ c'.pkt = c.pkt ∧
        ∀ k ∈ s.coreMask c.part (c.f 48 0 32), (t.core k).cache = []))

/-- MMU_MAP whose run passes the checks in their order adds the run, seen by commands dispatched from then on, and ends with
status 0; 0 pages, more than 2 to the 20, a misaligned address or target end it with 0x0104; an overlap with a run of the
address space with 0x0306. MMU_UNMAP takes its pages out of the runs of its page size, and afterwards none of them is mapped
there, while every other page still leads where it did. Both leave the other partitions, and all of HBM outside the entries of
the partition's page-table pool, as they were; where an entry cannot be written, an MMU_MAP maps nothing and ends with 0x0310
or 0x0311. That State holds the mappings as runs is the model's form, log entry 12. (spec/07_memory_system.md.) -/
def Obligations.PagesAreMappedAndRemoved : Prop :=
  ∀ (s : State) (id : Nat) (c : Cmd),
    (Runs s id 0x84 c →
      (s.mapCheck c (c.mapRun s.fe.nextCmd) = 0 → PoolSound s c.part → ∃ t : State,
        exec (.mmuMap id) s = .next (t.endRun c 0 0 none) ∧
        TablesOnly s t c.part ∧ (t.part c.part).maps = (s.part c.part).maps ++ [c.mapRun s.fe.nextCmd] ∧
        ∀ k ∈ (c.mapRun s.fe.nextCmd).tables, ∃ x ∈ (t.part c.part).tables, k.same x = true) ∧
      (s.mapCheck c (c.mapRun s.fe.nextCmd) = 0 → ∀ t e, s.mapPages c.part (c.mapRun s.fe.nextCmd) = (t, some e) →
        (e.status = 0x0310 ∨ e.status = 0x0311) ∧ t.part c.part = s.part c.part ∧
        exec (.mmuMap id) s = .next ((t.noteErr e c.queue c.seq.toNat).endRun c e.status 0 none)) ∧
      (s.mapCheck c (c.mapRun s.fe.nextCmd) ≠ 0 →
        exec (.mmuMap id) s = .next (s.endRun c (s.mapCheck c (c.mapRun s.fe.nextCmd)) 0 none)) ∧
      ((c.f 48 0 32 = 0 ∨ 2 ^ 20 < c.f 48 0 32 ∨ c.f 32 0 64 % (c.mapRun 0).page ≠ 0 ∨ c.f 40 0 64 % (c.mapRun 0).page ≠ 0) →
        s.mapCheck c (c.mapRun s.fe.nextCmd) = 0x0104) ∧
      (s.mapCheck c (c.mapRun s.fe.nextCmd) = 0 → ∀ o ∈ (s.part c.part).maps, o.asid = c.f 52 0 8 →
        overlap (c.f 32 0 64) (c.f 48 0 32 * (c.mapRun 0).page) o.dva (o.pages * o.page) = false)) ∧
    (Runs s id 0x85 c → 0 < c.f 48 0 32 → c.f 48 0 32 ≤ 2 ^ 20 → c.f 32 0 64 % (c.mapRun 0).page = 0 →
      c.f 32 0 64 + c.f 48 0 32 * (c.mapRun 0).page ≤ 2 ^ 56 → PoolSound s c.part →
      s.readsThrough c.part (c.f 52 0 8) (c.f 32 0 64) (c.f 32 0 64 + c.f 48 0 32 * (c.mapRun 0).page) = false →
      ∃ t : State, exec (.mmuUnmap id) s = .next (t.endRun c 0 0 none) ∧ TablesOnly s t c.part ∧
        (∀ m ∈ (t.part c.part).maps, m.asid = c.f 52 0 8 → m.big = (c.mapRun 0).big → 
          ∀ x, c.f 32 0 64 ≤ x → x < c.f 32 0 64 + c.f 48 0 32 * (c.mapRun 0).page → m.covers (c.f 52 0 8) x = false) ∧
        ((∀ o ∈ (s.part c.part).maps, o.dva % o.page = 0) → ∀ o ∈ (s.part c.part).maps, ∀ asid x, o.covers asid x = true →
          (x < c.f 32 0 64 ∨ c.f 32 0 64 + c.f 48 0 32 * (c.mapRun 0).page ≤ x) →
          ∃ m ∈ (t.part c.part).maps, m.covers asid x = true ∧ m.target + (x - m.dva) = o.target + (x - o.dva)))

/-- A TABLE_LOAD of a valid 256-byte image for a table of its partition replaces the table, counts its generation up modulo 4
and drops every slot copy of its ID, at once where nothing refers to it and otherwise when TABLE_LOAD_APPLY finds no reference
before the wait expires; an invalid image or a misaligned address ends it with 0x0604, a table of another partition with
0x0605. (spec/04_compression_and_sparsity.md, spec/10_command_set.md.) -/
def Obligations.DecodeTablesLoad : Prop :=
  (∀ (s : State) (id : Nat) (c : Cmd) (img : List Byte), Runs s id 0x31 c → c.phase = .started → c.f 32 0 64 < 2 ^ 56 →
    (s.ownsTable c.part (c.f 40 0 6) = false → exec (.tableLoad id) s = .next (s.endRun c 0x0605 0 none)) ∧
    (s.ownsTable c.part (c.f 40 0 6) = true → c.f 32 0 64 % 64 ≠ 0 → exec (.tableLoad id) s = .next (s.endRun c 0x0604 0 none)) ∧
    (s.ownsTable c.part (c.f 40 0 6) = true → c.f 32 0 64 % 64 = 0 →
      c.missing (s.hostRanges (s.accOf c 31 true) (c.f 32 0 64) 256) = [] → s.readDva (s.accOf c 31 true) (c.f 32 0 64) 256 = .ok img →
      (tableValid img = false → exec (.tableLoad id) s = .next (s.endRun c 0x0604 0 none)) ∧
      (tableValid img = true → s.tableRefs (c.f 40 0 6) = 0 →
        exec (.tableLoad id) s = .next ((s.applyTable (c.f 40 0 6) img).endRun c 0 0 none)) ∧
      (tableValid img = true → s.tableRefs (c.f 40 0 6) ≠ 0 → ∃ t, exec (.tableLoad id) s = .next t ∧
        t.cmd? id = some { c with phase := .running, block := some img } ∧ t.dtables = s.dtables))) ∧
  (∀ (s : State) (id : Nat) (c : Cmd) (img : List Byte), Runs s id 0x31 c → c.phase = .running → c.block = some img →
    (s.tableRefs (c.f 40 0 6) = 0 → (c.infinite = true ∨ s.now ≤ c.deadline) →
      exec (.tableLoadApply id) s = .next ((s.applyTable (c.f 40 0 6) img).endRun c 0 0 none)) ∧
    ((s.tableRefs (c.f 40 0 6) ≠ 0 ∨ (c.infinite = false ∧ c.deadline < s.now)) → exec (.tableLoadApply id) s = .next s)) ∧
  (∀ (s : State) (n : Nat) (img : List Byte), n < 64 →
    (s.applyTable n img).dtab n = { valid := true, gen := ((s.dtab n).gen + 1) % 4, image := img } ∧
    (∀ m, m ≠ n → (s.applyTable n img).dtab m = s.dtab m) ∧
    (∀ k i, k < 24 → i < 4 → (s.applyTable n img).fld (Reg.slots k) (8 * i + 7) 1 = 1 →
      (s.applyTable n img).fld (Reg.slots k) (8 * i) 6 ≠ n))

/-- CHECK of 128 raw bytes is the sum of (i + 1) times byte i over i = 0 to 127; 128 bytes of 255 reach the largest value,
2,105,280; changing any one byte, and exchanging any two unequal bytes, changes it. (R112.) -/
def Obligations.CheckWordFindsSingleErrors : Prop :=
  ∀ bs : List Byte, bs.length = 128 →
    checkSum bs = ((List.range 128).map (fun i => (i + 1) * (bs[i]?.getD 0).toNat)).sum ∧ checkSum bs ≤ 2105280 ∧
    checkSum (List.replicate 128 255) = 2105280 ∧ 2105280 < 2 ^ 32 ∧
    (∀ (i : Nat) (v : Byte), i < 128 → v ≠ bs[i]?.getD 0 → checkSum (bs.set i v) ≠ checkSum bs) ∧
    (∀ i j : Nat, i < j → j < 128 → bs[i]?.getD 0 ≠ bs[j]?.getD 0 →
      checkSum ((bs.set i (bs[j]?.getD 0)).set j (bs[i]?.getD 0)) ≠ checkSum bs)

/-- For every valid table image and every 128 raw bytes, the compressor's block is a zero block only for zero bytes, a raw
block that is the bytes themselves, or a coded block of whole 16-byte granules, at most 7, that names its table and
generation and decodes under that table to exactly the raw bytes. (spec/04_compression_and_sparsity.md.) -/
def Obligations.BlocksDecodeToWhatWasCompressed : Prop :=
  ∀ (img raw : List Byte) (id gen : Nat), tableValid img = true → raw.length = 128 → id < 64 → gen < 4 →
    ∀ (ty : Nat) (blk : List Byte), compressBlock (some (id, gen, img)) raw = (ty, blk) →
    (ty = 0 → blk = [] ∧ ∀ b ∈ raw, b = 0) ∧ (ty = 1 → blk = raw) ∧ ty ≤ 2 ∧
    (ty = 2 → decodeCoded img blk = .ok raw ∧ blk.length = 16 * (num blk 2 2 / 1024) ∧ num blk 2 2 / 1024 ≤ 7 ∧
      num blk 0 1 = id + 64 * gen)

/-- For every shape, every output row of an expert's list and every output channel lie in exactly one of the list's tiles, in
either order of the tiles, and no tile reaches beyond the list or the channels. (spec/03_matrix_fabric.md.) -/
def Obligations.TilesCoverTheOutputOnce : Prop :=
  ∀ (x : FabArgs) (cmd e first rows : Nat), 0 < rows →
    (∀ r n, r < rows → n < x.n → ∃ i t, i < x.tilesOf rows ∧ x.tileAt cmd i [(e, first, rows)] i = some t ∧
      t.row ≤ first + r ∧ first + r < t.row + t.rows ∧ t.col ≤ n ∧ n < t.col + t.cols ∧
      ∀ j u, j < x.tilesOf rows → x.tileAt cmd j [(e, first, rows)] j = some u → u.row ≤ first + r → first + r < u.row + u.rows →
        u.col ≤ n → n < u.col + u.cols → j = i) ∧
    (∀ i t, x.tileAt cmd i [(e, first, rows)] i = some t → i < x.tilesOf rows ∧ t.expert = e ∧ t.num = i ∧ t.cmd = cmd ∧
      first ≤ t.row ∧ t.row + t.rows ≤ first + rows ∧ t.col + t.cols ≤ x.n)

/-- A fabric command that passes its checks, in its turn, puts its tiles into its partition's dispenser, or ends at once
where it has none; more than 2 to the 32 tiles end it with 0x0116; an FP32 operand never passes; with every array of the
partition fenced it ends with 0x0810. A core with an active array, a DMA engine in service, fewer than two tiles and room in
its output buffer is granted the lowest tile left, which waits behind the one it runs; with none left an idle core takes
another's second tile; a core with no active array is granted nothing. (spec/03_matrix_fabric.md,
spec/04_compression_and_sparsity.md, spec/12_integrity_and_recovery.md.) -/
def Obligations.FabricCommandsRunAsTiles : Prop :=
  (∀ (s : State) (id op : Nat) (c : Cmd) (i : Instr), ((op = 0x20 ∧ i = .fabricMatmul id) ∨ (op = 0x21 ∧ i = .groupedMatmul id)) →
    Runs s id op c → c.phase = .started → ∀ x, s.parseFab c = .ok x →
    (x.a.elem ≠ 0 ∧ x.w.elem ≠ 0 ∧ x.m ≤ 2 ^ 24 ∧ x.n ≤ 2 ^ 20 ∧ x.k ≤ 2 ^ 20 ∧ x.d.cols = x.n) ∧
    (s.noArray c.part = true → exec i s = .next (s.endRun c 0x0810 0 none)) ∧
    (s.noArray c.part = false → s.fabTurn c = false → exec i s = .next s) ∧
    (s.noArray c.part = false → s.fabTurn c = true → ∀ ct es total, s.openTensor (s.accOf c 31 false) x.a = .ok ct →
      s.readExperts (s.accOf c 31 false) x = .ok es → total = es.foldl (fun n e => n + x.tilesOf e.2.2) 0 →
      (2 ^ 32 < total → exec i s = .next (s.endRun c 0x0116 0 none)) ∧
      (total = 0 → exec i s = .next (s.endRun c 0 0 none)) ∧
      (0 < total → total ≤ 2 ^ 32 → ∃ t, exec i s = .next t ∧ t.cmd? id = some { c with phase := .running } ∧
        (t.part c.part).fab = (s.part c.part).fab ++ [{ cmd := id, experts := es, total, left := total }] ∧
        t = { s with parts := t.parts, fe := { s.fe with cmds := t.fe.cmds } } ∧ (∀ p, p ≠ c.part → t.part p = s.part p)))) ∧
  (∀ (fab : List FabOp) (cmd n : Nat), lowestTile fab = some (cmd, n) →
    ∃ o ∈ fab, o.cmd = cmd ∧ ((n ∈ o.returned ∧ ∀ k ∈ o.returned, n ≤ k) ∨ (o.returned = [] ∧ n = o.next ∧ o.next < o.total))) ∧
  (∀ (s : State) (core p cmd n : Nat) (c : Cmd) (o : FabOp) (x : FabArgs) (t : Tile), core < 24 → s.coreOwner core = some p →
    s.active = true → (s.part p).resetDue = false →
    lowestTile (s.part p).fab = some (cmd, n) → s.cmd? cmd = some c → s.fabOp p cmd = some o → s.parseFab c = .ok x →
    x.tileAt cmd n o.experts n = some t →
    (s.canRun c = true → s.coreHeld c core = false → s.takesTiles core = true → (s.core core).tiles.length < 2 →
      s.hasRoom core x t.rows = true →
      exec (.tileRequest core false false) s = .next (s.grant c core t) ∧
      (∀ y, (s.core core).tiles = [y] → y.live = true → c.id = cmd → c.part = p →
        ((s.grant c core t).core core).tiles = [y, t] ∧
        ∀ o', (s.grant c core t).fabOp p cmd = some o' → n ∉ o'.returned ∧ (n = o.next → o'.next = o.next + 1))) ∧
    ((s.takesTiles core = false ∨ 2 ≤ (s.core core).tiles.length ∨ s.hasRoom core x t.rows = false) →
      exec (.tileRequest core false false) s = .next s)) ∧
  (∀ (s : State) (core victim p : Nat) (t0 t1 : Tile) (c : Cmd), core < 24 → victim < 24 → s.coreOwner core = some p →
    s.coreOwner victim = some p → s.active = true → (s.part p).resetDue = false → lowestTile (s.part p).fab = none →
    s.takesTiles core = true → (s.core core).tiles = [] → (s.core victim).tiles = [t0, t1] → s.cmd? t1.cmd = some c →
    s.canRun c = true → s.coreHeld c core = false →
    exec (.tileSteal core victim false) s =
      .next ((((s.setTiles victim [t0]).touch t1.cmd core).setTiles core [t1]).enterHead core 3)) ∧
  (∀ (s : State) (core : Nat), s.arrays core = [] → s.takesTiles core = false)

/-- A stationary tile as the loader writes it, and rows that hold its reduction in the same groups, pass the exact check of an
array that no fault met, and fail it where one group sum is off by a number that is not a multiple both of 2 to the 32 and of
255. A part of a pass that no check finds at fault commits one bank in each array of its tile; a first failure leaves the
committed banks for the replay; an array that fails the replay too is fenced. A split pass closes where its token entered. The
physical function's write of fence bits joins the pending fences, which at a tile boundary clear their arrays. A table that a
waiting block lacks fills a free slot, or else the least recently used without a reference, and no block waits for it then.
(spec/03_matrix_fabric.md, spec/04_compression_and_sparsity.md, spec/12_integrity_and_recovery.md.) -/
def Obligations.PassesCheckAndArraysFence : Prop :=
  (∀ (x : FabArgs) (len arr : Nat) (chans : List (List (Nat × Val))) (rows : List (List (Val × Val))), len ≤ x.kt → 0 < x.group →
    (∀ w ∈ chans, w.length = len) → (∀ r ∈ rows, r.length = len) →
    (∀ p, p = arrayPass x (loadStat x chans) [] arr (rows.map (rowGroups (x.mode == 16) x.a.elem x.group)) →
      p.check x (loadStat x chans) [] arr = none) ∧
    (∀ i j g (d : Int), i < rows.length → j < chans.length → g < ceilDiv len x.group → ¬((2 : Int) ^ 32 ∣ d ∧ (255 : Int) ∣ d) →
      ∀ p, p = arrayPass x (loadStat x chans) [.sum arr i j g d] arr (rows.map (rowGroups (x.mode == 16) x.a.elem x.group)) →
        p.check x (loadStat x chans) [.sum arr i j g d] arr ≠ none)) ∧
  (∀ (s : State) (core : Nat) (c : Cmd) (x : FabArgs) (t : Tile) (kt : Nat), core < 24 → s.running core = some (c, x, t, kt) →
    ((s.core core).expanding = true → ∀ fs, exec (.passCheck core fs) s = .next s) ∧
    ((s.core core).expanding = false → ∀ rows fs, s.partWindows (s.accOf c core false) x t kt = .ok rows → refetches fs = [] →
      (∀ f ∈ fs, ∀ id again, f ≠ .path id again) →
      (∀ s1, s1 = (s.countAttempt (s.accOf c core false) c core x t kt).noteRows (s.accOf c core false) c core x t kt rows →
        (s1.partFails core x t fs rows = [] → t.failed = [] → t.cuts ≠ [] → t.arrs.Nodup →
          ∃ u, exec (.passCheck core fs) s = .next u ∧
            (u.core core).tiles = (s.core core).tiles.map (fun y => if y.same t then t.passed else y) ∧
            ∀ a q, (a, q) ∈ t.arrs.zipIdx → (u.arr core a).banks = [(t.nextBank, s.newBank core x t fs a q rows)]) ∧
        (∀ w, s1.partFails core x t fs rows ≠ [] → t.failed = [] → s.passCols (s.accOf c core false) x t kt = .ok w →
          ∃ u, exec (.passCheck core fs) s = .next u ∧
            (∀ y ∈ (u.core core).tiles, y.same t = true → y.failed = s1.partFails core x t fs rows ∧ y.bank = t.bank ∧ y.ran = t.ran) ∧
            ∀ a, (u.arr core a).banks = (s.arr core a).banks) ∧
        (∀ a o f, o ∈ t.failed → f ∈ s1.partFails core x t fs rows → o.array = some a → f.array = some a →
          ∃ (s' : State) (t' : Tile) (gs : List Fail), exec (.passCheck core fs) s = .next (s'.fenceArrays c core t' gs) ∧
            (∃ g ∈ gs, g.array = some a) ∧ t'.same t = true ∧ t.ran + 1 ≤ t'.begun ∧ t.begun ≤ t'.begun ∧
            (s'.core core).tiles = (s.core core).tiles))) ∧
    (∀ slots, (t.cuts.getLast?).getD t.lo < slots → slots < t.slots →
      exec (.passSplit core slots) s = .next ((s.count core 0x16 1).setTiles core ((s.core core).tiles.map (fun y =>
        if y.same t then { t with cuts := t.cuts ++ [slots] } else y))))) ∧
  (∀ (s : State) (c : Cmd) (core a : Nat) (f : Fail), a < 4 → f.array = some a →
    (s.fenceOne c core f).fld (Reg.arrayFence core) a 1 = 1 ∧ (s.fenceOne c core f).fld (Reg.arrayStatus core) a 1 = 0 ∧
    ((s.fenceOne c core f).core core).bist = (s.core core).bist ++ [a]) ∧
  (∀ (s : State) (core id i : Nat), core < 24 → id < 64 → i < 4 → s.active = true → (s.core core).waits.contains id = true →
    s.slotFor core = some i → (s.core core).lanes.wf (fun _ => []) = true →
    ∃ u, exec (.decodeSlotFill core id) s = .next u ∧ u.fld (Reg.slots core) (8 * i) 8 = id + 128 ∧
      (u.core core).waits.contains id = false ∧ (∀ k, k ≠ core → u.core k = s.core k)) ∧
  (∀ (s : State) (core : Nat),
    (∀ i, i < 4 → s.slotFull core i = false → ∃ j, s.slotFor core = some j ∧ j ≤ i ∧ s.slotFull core j = false) ∧
    ((∀ i, i < 4 → s.slotFull core i = true) → ∀ i, s.slotFor core = some i → s.slotBusy core i = false ∧
      ∃ newer older, (s.core core).slotUse = newer ++ i :: older ∧ ∀ j ∈ older, s.slotBusy core j = true)) ∧
  (∀ (s : State) (core : Nat) (val : BitVec 32), core < 24 → Reachable s 0 (Reg.arrayFence core) →
    ∃ t, exec (.arrayFenceSet 0 core val) s = .next t ∧
      t.fld (Reg.arrayFence core) 0 4 = s.fld (Reg.arrayFence core) 0 4 ||| val.toNat % 16 ∧
      (∀ a, a < 4 → (bitB (t.core core).fencePend a = true ↔
        (bitB (s.core core).fencePend a = true ∨ (bitB val.toNat a = true ∧ s.fld (Reg.arrayFence core) a 1 = 0)))) ∧
      t = { s with regs := t.regs, cores := t.cores } ∧ (∀ k, k ≠ Reg.arrayFence core → t.reg k = s.reg k)) ∧
  (∀ (s : State) (fn core : Nat) (val : BitVec 32), core < 24 → fn ≠ 0 → Reachable s fn (Reg.arrayFence core) →
    exec (.arrayFenceSet fn core val) s = .next s) ∧
  (∀ (s : State) (core : Nat), core < 24 → s.active = true → (s.core core).fencePend ≠ 0 → (s.core core).tiles = [] →
    (s.coreOwner core = none ∨ s.fld (Reg.arrayStatus core) 0 4 &&& (15 - (s.core core).fencePend % 16) ≠ 0) →
    ∃ t, exec (.arrayFenceTakesEffect core) s = .next t ∧
      t.fld (Reg.arrayStatus core) 0 4 = s.fld (Reg.arrayStatus core) 0 4 &&& (15 - (s.core core).fencePend % 16) ∧
      (t.core core).fencePend = 0 ∧ (t.core core).bist = (s.core core).bist ++ ones (s.core core).fencePend 4)

/-- Each of the lane-wise instructions, in its format-A form and, where it has one, its format-B form, writes in every active
lane what it computes from that lane of its operands, leaves an inactive lane as it was or clears it with ZM, and goes on at
the next instruction; no other register of the core changes. (spec/05_vector_engine.md.) -/
def Obligations.LaneInstructions : Prop :=
  ∀ (s : State) (c : Cmd) (r : VRun) (v : VA) (i : Instr) (op : Nat) (f : Nat → Nat → Nat → Nat → Nat),
    ((i = .vAdd v ∧ op = 0x01 ∧ f = fun _ a b _ => if v.int then (a + b) % 2 ^ 32 else fAdd a b) ∨
     (i = .vSub v ∧ op = 0x02 ∧ f = fun _ a b _ => if v.int then (a + 2 ^ 32 - b) % 2 ^ 32 else fSub a b) ∨
     (i = .vMul v ∧ op = 0x03 ∧ f = fun _ a b _ => if v.int then a * b % 2 ^ 32 else fMul a b) ∨
     (i = .vFma v ∧ op = 0x04 ∧ f = fun _ a b d => if v.int then (a * b + d) % 2 ^ 32 else fFma a b d) ∨
     (i = .vMin v ∧ op = 0x05 ∧ f = fun _ a b _ => if v.int then (if sgn 32 a ≤ sgn 32 b then a else b) else fMin a b) ∨
     (i = .vMax v ∧ op = 0x06 ∧ f = fun _ a b _ => if v.int then (if sgn 32 a ≤ sgn 32 b then b else a) else fMax a b) ∨
     (i = .vAnd v ∧ op = 0x10 ∧ f = fun _ a b _ => a &&& b) ∨ (i = .vOr v ∧ op = 0x11 ∧ f = fun _ a b _ => a ||| b) ∨
     (i = .vXor v ∧ op = 0x12 ∧ f = fun _ a b _ => a ^^^ b) ∨
     (i = .vShl v ∧ op = 0x13 ∧ f = fun _ a b _ => a * 2 ^ (b % 32) % 2 ^ 32) ∨
     (i = .vShr v ∧ op = 0x14 ∧ f = fun _ a b _ => a / 2 ^ (b % 32)) ∨
     (i = .vSra v ∧ op = 0x15 ∧ f = fun _ a b _ => unsgn 32 (sgn 32 a / (2 ^ (b % 32) : Nat))) ∨
     (v.imm = none ∧
      ((i = .vCvtif v ∧ op = 0x18 ∧ f = fun _ a _ _ => toF32 (.fin (sgn 32 a < 0) (sgn 32 a).natAbs 0)) ∨
       (i = .vCvtfi v ∧ op = 0x19 ∧ f = fun _ a _ _ => cvtFI (if v.vc % 2 = 0 then .rne else .rtz) a) ∨
       (i = .vExp2 v ∧ op = 0x20 ∧ f = fun _ a _ _ => sfu 0 a) ∨ (i = .vLog2 v ∧ op = 0x21 ∧ f = fun _ a _ _ => sfu 1 a) ∨
       (i = .vRcp v ∧ op = 0x22 ∧ f = fun _ a _ _ => sfu 2 a) ∨ (i = .vRsqrt v ∧ op = 0x23 ∧ f = fun _ a _ _ => sfu 3 a) ∨
       (i = .vPerm v ∧ op = 0x2D ∧ f = fun _ _ b _ => fMove v.int (s.lane v.core v.va (b % 512)).toNat) ∨
       (i = .vIdx v ∧ op = 0x2E ∧ f = fun k _ _ _ => k) ∨
       (i = .vBcast v ∧ op = 0x30 ∧ f = fun _ _ _ _ => fMove v.int ((s.sreg v.core v.va).toNat % 2 ^ 32))))) →
    s.lanesOk = true → vaFits v = true → v.chk = .ok → AtInsn s v.core c r (vaWord op v) →
    ∃ t : State, exec i s = .next (t.retireInsn v.core (r.pc + 1)) ∧ s.onlyVector t v.core ∧
      (t.core v.core).m = (s.core v.core).m ∧ (t.core v.core).x = (s.core v.core).x ∧
      (∀ j, j ≠ v.vd → t.vreg v.core j = s.vreg v.core j) ∧
      (∀ k, k < 512 → t.lane v.core v.vd k =
        if (s.mreg v.core v.mask).getLsbD k then
          BitVec.ofNat 32 (f k (s.lane v.core v.va k).toNat (match v.imm with | some x => x.toNat | none => (s.lane v.core v.vb k).toNat)
            (s.lane v.core (if v.imm.isSome then v.vd else v.vc) k).toNat)
        else if v.zm then 0 else s.lane v.core v.vd k)

/-- An FP32 operation with a NaN operand writes the canonical NaN 0x7FC00000 (MIN and MAX only where both are NaN, and
otherwise the number); addition and multiplication do not depend on the order of their operands; MIN puts the zero with the
sign below the other and MAX above; the special functions answer NaN, zero, infinite and negative inputs as their table says,
whichever neighbour the unit gives elsewhere; conversion to INT32 clamps and turns NaN into 0. Every code of every
floating-point format that is not NaN encodes back to itself without a flag, whatever the rounding.
(spec/05_vector_engine.md, spec/02_number_formats_and_quantisation.md.) -/
def Obligations.FpRoundTripAndSpecialCases : Prop :=
  (∀ (code : Nat) (f : FFmt) (x : Nat) (r : Rnd) (ieee : Bool), fmtOf code = some f → x < 2 * f.mag → f.decode x ≠ .nan →
    f.encode r ieee (f.decode x) = (x, 0)) ∧
  (∀ a b d : Nat, a < 2 ^ 32 → b < 2 ^ 32 → d < 2 ^ 32 →
    (isNan32 a = true ∨ isNan32 b = true →
      fAdd a b = 0x7FC00000 ∧ fSub a b = 0x7FC00000 ∧ fMul a b = 0x7FC00000 ∧ fFma a b d = 0x7FC00000 ∧ fFma d a b = 0x7FC00000) ∧
    fAdd a b = fAdd b a ∧ fMul a b = fMul b a ∧
    (isNan32 a = true → isNan32 b = false → fMin a b = b ∧ fMin b a = b ∧ fMax a b = b ∧ fMax b a = b) ∧
    (isNan32 a = true → isNan32 b = true → fMin a b = 0x7FC00000 ∧ fMax a b = 0x7FC00000) ∧
    (isNan32 a = true → sfu 0 a = 0x7FC00000 ∧ sfu 1 a = 0x7FC00000 ∧ sfu 2 a = 0x7FC00000 ∧ sfu 3 a = 0x7FC00000) ∧
    (0x80000000 < a → a < 0xFF800000 → sfu 1 a = 0x7FC00000 ∧ sfu 3 a = 0x7FC00000) ∧
    (∀ m, (isNan32 a = true → cvtFI m a = 0) ∧ cvtFI m a < 2 ^ 32 ∧ (0x4F000000 ≤ a → a ≤ 0x7F800000 → cvtFI m a = 0x7FFFFFFF) ∧
      (0xCF000000 ≤ a → a ≤ 0xFF800000 → cvtFI m a = 0x80000000))) ∧
  (fMin 0 0x80000000 = 0x80000000 ∧ fMin 0x80000000 0 = 0x80000000 ∧ fMax 0 0x80000000 = 0 ∧ fMax 0x80000000 0 = 0) ∧
  (sfu 0 0x7F800000 = 0x7F800000 ∧ sfu 0 0xFF800000 = 0 ∧ sfu 1 0 = 0xFF800000 ∧ sfu 1 0x80000000 = 0xFF800000 ∧
    sfu 1 0x7F800000 = 0x7F800000 ∧ sfu 1 0xFF800000 = 0x7FC00000 ∧ sfu 2 0 = 0x7F800000 ∧ sfu 2 0x80000000 = 0xFF800000 ∧
    sfu 2 0x7F800000 = 0 ∧ sfu 2 0xFF800000 = 0x80000000 ∧ sfu 3 0 = 0x7F800000 ∧ sfu 3 0x80000000 = 0xFF800000 ∧
    sfu 3 0x7F800000 = 0 ∧ sfu 3 0xFF800000 = 0x7FC00000)

/-- Comparisons and mask instructions write their bit in every active lane of the destination mask, whose other bits keep or
clear, M0 staying all ones; SEL takes each lane from a or b; INT32 sums are sums modulo 2 to the 32, REDSUMO adds in
ascending lanes, REDMAX and REDMIN write an active lane's extreme, or an FP32 infinity without one; SCAN writes inclusive
sums; MPOP counts set bits and EXTRACT takes a lane into a scalar. (spec/05_vector_engine.md.) -/
def Obligations.MasksReductionsAndSelections : Prop :=
  ∀ (s : State) (c : Cmd) (r : VRun) (v : VA), s.lanesOk = true → vaFits v = true → v.chk = .ok →
    (∀ (i : Instr) (op : Nat) (g : Nat → Bool), v.imm = none →
      ((i = .vCmpeq v ∧ op = 0x08 ∧ g = fun k => if v.int then s.lane v.core v.va k == s.lane v.core v.vb k
          else (ofF32 (s.lane v.core v.va k).toNat).eqv (ofF32 (s.lane v.core v.vb k).toNat)) ∨
       (i = .vCmplt v ∧ op = 0x09 ∧ g = fun k => if v.int then decide ((s.lane v.core v.va k).toInt < (s.lane v.core v.vb k).toInt)
          else (ofF32 (s.lane v.core v.va k).toNat).lt (ofF32 (s.lane v.core v.vb k).toNat)) ∨
       (i = .vCmple v ∧ op = 0x0A ∧ g = fun k => if v.int then decide ((s.lane v.core v.va k).toInt ≤ (s.lane v.core v.vb k).toInt)
          else (ofF32 (s.lane v.core v.va k).toNat).lt (ofF32 (s.lane v.core v.vb k).toNat) ||
            (ofF32 (s.lane v.core v.va k).toNat).eqv (ofF32 (s.lane v.core v.vb k).toNat)) ∨
       (i = .vCmpun v ∧ op = 0x0B ∧ g = fun k => isNan32 (s.lane v.core v.va k).toNat || isNan32 (s.lane v.core v.vb k).toNat) ∨
       (i = .vMand v ∧ op = 0x34 ∧ g = fun k => (s.mreg v.core (v.va % 8)).getLsbD k && (s.mreg v.core (v.vb % 8)).getLsbD k) ∨
       (i = .vMor v ∧ op = 0x35 ∧ g = fun k => (s.mreg v.core (v.va % 8)).getLsbD k || (s.mreg v.core (v.vb % 8)).getLsbD k) ∨
       (i = .vMnot v ∧ op = 0x36 ∧ g = fun k => !(s.mreg v.core (v.va % 8)).getLsbD k)) →
      AtInsn s v.core c r (vaWord op v) → ∃ t : State, exec i s = .next (t.retireInsn v.core (r.pc + 1)) ∧ s.onlyVector t v.core ∧
        (t.core v.core).v = (s.core v.core).v ∧ (t.core v.core).x = (s.core v.core).x ∧
        (∀ j, j ≠ v.vd % 8 → t.mreg v.core j = s.mreg v.core j) ∧ t.mreg v.core 0 = BitVec.allOnes 512 ∧
        (v.vd % 8 ≠ 0 → ∀ k, k < 512 → (t.mreg v.core (v.vd % 8)).getLsbD k =
          if (s.mreg v.core v.mask).getLsbD k then g k else if v.zm then false else (s.mreg v.core (v.vd % 8)).getLsbD k)) ∧
    (∀ (i : Instr) (op : Nat) (x : Nat → Word), v.imm = none →
      ((i = .vSel v ∧ op = 0x0C ∧ x = fun k => BitVec.ofNat 32 (fMove v.int
          (if (s.mreg v.core v.mask).getLsbD k then (s.lane v.core v.va k).toNat else (s.lane v.core v.vb k).toNat))) ∨
       (v.int = true ∧ ((i = .vRedsum v ∧ op = 0x28) ∨ (i = .vRedsumo v ∧ op = 0x29)) ∧
          x = fun _ => BitVec.ofNat 32 (activeVals (s.mreg v.core v.mask) (s.vreg v.core v.va)).sum) ∨
       (v.int = false ∧ i = .vRedsum v ∧ op = 0x28 ∧ x = fun _ => BitVec.ofNat 32 (fMove false
          ((treeSum false 9 (laneOpts (s.mreg v.core v.mask) (s.vreg v.core v.va)) 0).1.getD 0))) ∨
       (v.int = false ∧ i = .vRedsumo v ∧ op = 0x29 ∧ x = fun _ => BitVec.ofNat 32
          (match activeVals (s.mreg v.core v.mask) (s.vreg v.core v.va) with | [] => 0 | y :: ys => fMove false (ys.foldl fAdd y))) ∨
       (v.int = false ∧ i = .vRedmax v ∧ op = 0x2A ∧ x = fun _ => BitVec.ofNat 32
          (match activeVals (s.mreg v.core v.mask) (s.vreg v.core v.va) with
            | [] => 0xFF800000 | y :: ys => fMove false (ys.foldl fMax y))) ∨
       (v.int = false ∧ i = .vRedmin v ∧ op = 0x2B ∧ x = fun _ => BitVec.ofNat 32
          (match activeVals (s.mreg v.core v.mask) (s.vreg v.core v.va) with
            | [] => 0x7F800000 | y :: ys => fMove false (ys.foldl fMin y)))) →
      AtInsn s v.core c r (vaWord op v) → ∃ t : State, exec i s = .next (t.retireInsn v.core (r.pc + 1)) ∧ s.onlyVector t v.core ∧
        (t.core v.core).m = (s.core v.core).m ∧ (t.core v.core).x = (s.core v.core).x ∧
        (∀ j, j ≠ v.vd → t.vreg v.core j = s.vreg v.core j) ∧ ∀ k, k < 512 → t.lane v.core v.vd k = x k) ∧
    (v.imm = none → v.int = true → ∀ (i : Instr) (op : Nat) (d : Int),
      ((i = .vRedmax v ∧ op = 0x2A ∧ d = 1) ∨ (i = .vRedmin v ∧ op = 0x2B ∧ d = -1)) →
      AtInsn s v.core c r (vaWord op v) → (∃ k, k < 512 ∧ (s.mreg v.core v.mask).getLsbD k = true) →
      ∃ (t : State) (k : Nat), exec i s = .next (t.retireInsn v.core (r.pc + 1)) ∧ s.onlyVector t v.core ∧ k < 512 ∧
        (s.mreg v.core v.mask).getLsbD k = true ∧ (∀ j, j < 512 → t.lane v.core v.vd j = s.lane v.core v.va k) ∧
        ∀ j, j < 512 → (s.mreg v.core v.mask).getLsbD j = true → d * (s.lane v.core v.va j).toInt ≤ d * (s.lane v.core v.va k).toInt) ∧
    (v.imm = none → v.int = true → ∀ (i : Instr) (op : Nat), ((i = .vRedmax v ∧ op = 0x2A) ∨ (i = .vRedmin v ∧ op = 0x2B)) →
      AtInsn s v.core c r (vaWord op v) → (∀ k, k < 512 → (s.mreg v.core v.mask).getLsbD k = false) →
      ∃ t : State, exec i s = .next (t.retireInsn v.core (r.pc + 1)) ∧ t.free = s.free + 1 ∧
        ∀ j, j < 512 → t.lane v.core v.vd j = t.lane v.core v.vd 0) ∧
    (v.imm = none → v.int = true → AtInsn s v.core c r (vaWord 0x2C v) →
      ∃ t : State, exec (.vScan v) s = .next (t.retireInsn v.core (r.pc + 1)) ∧ s.onlyVector t v.core ∧
        ∀ k, k < 512 → t.lane v.core v.vd k = if (s.mreg v.core v.mask).getLsbD k then
          BitVec.ofNat 32 (((List.range (k + 1)).filter (fun j => (s.mreg v.core v.mask).getLsbD j)).map
            (fun j => (s.lane v.core v.va j).toNat)).sum
          else if v.zm then 0 else s.lane v.core v.vd k) ∧
    (v.imm = none → v.int = false → AtInsn s v.core c r (vaWord 0x2C v) →
      ∃ t : State, exec (.vScan v) s = .next (t.retireInsn v.core (r.pc + 1)) ∧ s.onlyVector t v.core ∧
        ∀ k, k < 512 → (s.mreg v.core v.mask).getLsbD k = false → t.lane v.core v.vd k = if v.zm then 0 else s.lane v.core v.vd k) ∧
    (v.imm = none → AtInsn s v.core c r (vaWord 0x37 v) →
      ∃ t : State, exec (.vMpop v) s = .next (t.retireInsn v.core (r.pc + 1)) ∧ s.onlyVector t v.core ∧
        (t.core v.core).v = (s.core v.core).v ∧ (t.core v.core).m = (s.core v.core).m ∧
        (∀ j, j ≠ v.vd → t.sreg v.core j = s.sreg v.core j) ∧ t.sreg v.core 0 = 0 ∧
        (v.vd ≠ 0 → (t.sreg v.core v.vd).toNat = ((List.range 512).filter (fun k =>
          (s.mreg v.core (v.va % 8)).getLsbD k && (s.mreg v.core v.mask).getLsbD k)).length)) ∧
    (∀ x : Word, v.imm = some x → AtInsn s v.core c r (vaWord 0x31 v) →
      ∃ t : State, exec (.vExtract v) s = .next (t.retireInsn v.core (r.pc + 1)) ∧ s.onlyVector t v.core ∧
        (t.core v.core).v = (s.core v.core).v ∧ (t.core v.core).m = (s.core v.core).m ∧
        (∀ j, j ≠ v.vd → t.sreg v.core j = s.sreg v.core j) ∧
        (v.vd ≠ 0 → (t.sreg v.core v.vd).toNat = (s.lane v.core v.va x.toNat).toNat))

/-- LD and LDG with every active lane accessible and its bytes readable write each active lane from its element and leave the
others; ST and STS with every active lane accessible and the bytes writable store; a lane outside what its image declares, or
a misaligned base of LD or ST, stops the run with 0x0320. SLD and SST move 8 bytes between a scalar and the core's SRAM; ROT
rotates its elements in place. (spec/05_vector_engine.md, spec/07_memory_system.md.) -/
def Obligations.VectorLoadsAndStores : Prop :=
  (∀ (s : State) (c : Cmd) (r : VRun) (v : VL) (gather : Bool) (op : Nat) (i : Instr),
    ((gather = false ∧ op = 0x60 ∧ i = .vLd v) ∨ (gather = true ∧ op = 0x62 ∧ i = .vLdg v)) → s.lanesOk = true → vlFits v = true →
    v.chk = .ok → AtInsn s v.core c r (vlWord op v) →
    (vlMay gather v (num (s.runImage c r) 8 1) s = false → exec i s = .next (s.stopRun c 0x0320 r.pc)) ∧
    (vlMay gather v (num (s.runImage c r) 8 1) s = true → ∀ (lanes : List Nat) (es : List (Nat × Nat)) (s1 : State) (bs : List (List Byte)),
      lanes = (List.range 512).filter (fun k => (s.mreg v.core v.mask).getLsbD k) →
      es = lanes.map (fun k => elemAt (vlBase v s) (vlBits v) (vlIndex gather (s.vreg v.core v.vidx) k)) →
      s.vecRead (s.accOf c v.core false) v.core v.glob (es.map (fun e => (e.1, elemLen e.2 (vlBits v))) ++
        (if vlSf v = 0 then [] else lanes.map (fun k => (vlScaleAt v s (vlIndex gather (s.vreg v.core v.vidx) k), 1)))) = (s1, .ok bs) →
      bs.length = (if vlSf v = 0 then lanes.length else 2 * lanes.length) →
      (∀ j, lanes.length ≤ j → j < bs.length → scaleNegative (vlSf v) (leNat (bs[j]?.getD [])) = false) →
      ∃ t : State, exec i s = .next (t.retireInsn v.core (r.pc + 1)) ∧ (∀ j, j ≠ v.vr → t.vreg v.core j = s1.vreg v.core j) ∧
        (∀ k, k < 512 → (s.mreg v.core v.mask).getLsbD k = false →
          t.lane v.core v.vr k = if v.zm then 0 else s1.lane v.core v.vr k) ∧
        (s1.lanesOk = true → ∀ j k e, lanes[j]? = some k → es[j]? = some e → t.lane v.core v.vr k =
          BitVec.ofNat 32 (loadLane v s1.free k (bits (leNat (bs[j]?.getD [])) e.2 (vlBits v))
            (if vlSf v = 0 then 0 else leNat (bs[lanes.length + j]?.getD []))).1))) ∧
  (∀ (s : State) (c : Cmd) (r : VRun) (v : VL) (gather : Bool) (op : Nat) (i : Instr) (st : Stored),
    ((gather = false ∧ op = 0x61 ∧ i = .vSt v) ∨ (gather = true ∧ op = 0x63 ∧ i = .vSts v)) → vlFits v = true →
    v.chk = .ok → AtInsn s v.core c r (vlWord op v) → st = vlStored gather v c (num (s.runImage c r) 8 1) s →
    (vlMay gather v (num (s.runImage c r) 8 1) s = false → exec i s = .next (s.stopRun c 0x0320 r.pc)) ∧
    (vlMay gather v (num (s.runImage c r) 8 1) s = true → ovfOk (vlElem v) v.ieee = false →
      exec i s = .next (s.stopRun c 0x0114 r.pc)) ∧
    (vlMay gather v (num (s.runImage c r) 8 1) s = true → ovfOk (vlElem v) v.ieee = true →
      (c.strictNan = false ∨ bitB st.flags 2 = false) →
      ∀ s1, (s.markStore c).vecWrite (s.accOf c v.core false) v.core v.glob (st.writes v s) = (s1, none) →
      ∃ t : State, exec i s = .next (t.retireInsn v.core (r.pc + 1)) ∧ t.mem = s1.mem ∧ t.free = s1.free + 1 ∧ t.parts = s1.parts)) ∧
  (∀ (s : State) (c : Cmd) (r : VRun) (v : VS) (a : Nat), vsFits v = true → v.chk = .ok →
    a = (s.sreg v.core v.sa + v.imm.signExtend 64).toNat →
    (AtInsn s v.core c r (vsWord 0x73 v) →
      (a % 8 = 0 → regionOk (num (s.runImage c r) 8 1) false none a 8 = true → s.sramBad (sramKey v.core a / 16) = false →
        (∀ e ∈ s.mem.sramOne, e.1 = sramKey v.core a / 16 → e.2 = false) →
        ∃ t : State, exec (.vSld v) s = .next (t.retireInsn v.core (r.pc + 1)) ∧ s.onlyVector t v.core ∧
          (v.sd ≠ 0 → ∀ j, j < 8 → bits (t.sreg v.core v.sd).toNat (8 * j) 8 = (s.sramByte (sramKey v.core a + j)).toNat) ∧
          (∀ j, j ≠ v.sd → t.sreg v.core j = s.sreg v.core j)) ∧
      (a % 8 ≠ 0 → exec (.vSld v) s = .next (s.stopRun c 0x0320 r.pc))) ∧
    (AtInsn s v.core c r (vsWord 0x74 v) →
      (a % 8 = 0 → regionOk (num (s.runImage c r) 8 1) false none a 8 = true →
        (∀ w, sramKey v.core a / 16 = w → s.sramBad w = false) →
        ∃ t : State, exec (.vSst v) s = .next (t.retireInsn v.core (r.pc + 1)) ∧
          (∀ j, j < 8 → (t.sramByte (sramKey v.core a + j)).toNat = bits (s.sreg v.core v.sb).toNat (8 * j) 8) ∧
          (∀ k, (k < sramKey v.core a ∨ sramKey v.core a + 8 ≤ k) → t.sramByte k = s.sramByte k) ∧ t.mem.hbm = s.mem.hbm) ∧
      (a % 8 ≠ 0 → exec (.vSst v) s = .next (s.stopRun c 0x0320 r.pc))) ∧
    (AtInsn s v.core c r (vsWord 0x68 v) → ∀ (s1 s2 : State) (mask : Nat → Bool) (b : List Byte) (n : Nat),
      n = (s.sreg v.core v.sb).toNat → (s.sreg v.core v.sa).toNat % 4 = 0 →
      (n = 0 ∨ regionOk (num (s.runImage c r) 8 1) false none (s.sreg v.core v.sa).toNat (4 * n) = true) →
      n % 2 ^ (v.imm.toNat % 16) = 0 → s.rotMask c v (num (s.runImage c r) 8 1) (2 ^ (v.imm.toNat % 16)) = (s1, .ok mask) →
      s1.readSram (s.accOf c v.core false) v.core (s.sreg v.core v.sa).toNat (4 * n) = .ok b →
      let out := (rotateRow (v.imm.toNat % 16) mask ((unpack 32 n b).map ofF32)).map (convElem 0 .rne true)
      ((s1.fixLocal v.core [((s.sreg v.core v.sa).toNat, 4 * n)]).markStore c).writeSram (s.accOf c v.core false) v.core
        (s.sreg v.core v.sa).toNat (pack 32 (out.map (·.1))) = (s2, none) →
      (c.strictNan = false ∨ ∀ x ∈ out, bitB x.2 2 = false) →
      ∃ t : State, exec (.vRot v) s = .next (t.retireInsn v.core (r.pc + 1)) ∧ t.mem = s2.mem ∧ t.parts = s2.parts))

/-- Scalar arithmetic is modulo 2 to the 64 and S0 stays 0; BR goes to PC plus its immediate where its condition holds and
otherwise on; END ends the core's run; VECTOR_RUN of a loaded program starts every named core that is free for it at PC 0 with
the run's scalars, and ends with 0x0119, 0x0911 or 0x0821 for a missing program, a core outside the partition, or an engine
out of service; a core at its instruction limit stops the run with 0x011A. PROGRAM_LOAD of a valid image stores it under a
handle not in use, which DETAIL gives, and an invalid one completes with 0x0118. (spec/05_vector_engine.md.) -/
def Obligations.ScalarsBranchesAndRuns : Prop :=
  (∀ (s : State) (c : Cmd) (r : VRun) (v : VS) (i : Instr) (op : Nat) (x : BitVec 64), vsFits v = true → v.chk = .ok →
    ((i = .vSadd v ∧ op = 0x70 ∧ x = s.sreg v.core v.sa + s.sreg v.core v.sb + v.imm.signExtend 64) ∨
     (i = .vSsub v ∧ op = 0x71 ∧ x = s.sreg v.core v.sa - s.sreg v.core v.sb) ∨
     (i = .vSmul v ∧ op = 0x72 ∧ x = s.sreg v.core v.sa * s.sreg v.core v.sb) ∨
     (i = .vSli v ∧ op = 0x75 ∧ x = v.imm.signExtend 64)) →
    AtInsn s v.core c r (vsWord op v) → ∃ t : State, exec i s = .next (t.retireInsn v.core (r.pc + 1)) ∧ s.onlyVector t v.core ∧
      (t.core v.core).v = (s.core v.core).v ∧ (t.core v.core).m = (s.core v.core).m ∧
      (∀ j, j ≠ v.sd → t.sreg v.core j = s.sreg v.core j) ∧ t.sreg v.core 0 = 0 ∧ (v.sd ≠ 0 → t.sreg v.core v.sd = x)) ∧
  (∀ (s : State) (c : Cmd) (r : VRun) (v : VS), vsFits v = true → v.chk = .ok →
    (AtInsn s v.core c r (vsWord 0x78 v) → ∀ (a b : BitVec 64), a = s.sreg v.core v.sa → b = s.sreg v.core v.sb →
      ((v.cond = 0 ∨ (v.cond = 1 ∧ a = b) ∨ (v.cond = 2 ∧ a ≠ b) ∨ (v.cond = 3 ∧ a.toInt < b.toInt) ∨ (v.cond = 4 ∧ b.toInt ≤ a.toInt) ∨
        (v.cond = 5 ∧ a.toNat < b.toNat) ∨ (v.cond = 6 ∧ b.toNat ≤ a.toNat)) →
        exec (.vBr v) s = .next (s.retireInsn v.core ((r.pc : Int) + v.imm.toInt).toNat)) ∧
      (((v.cond = 1 ∧ a ≠ b) ∨ (v.cond = 2 ∧ a = b) ∨ (v.cond = 3 ∧ b.toInt ≤ a.toInt) ∨ (v.cond = 4 ∧ a.toInt < b.toInt) ∨
        (v.cond = 5 ∧ b.toNat ≤ a.toNat) ∨ (v.cond = 6 ∧ a.toNat < b.toNat)) →
        exec (.vBr v) s = .next (s.retireInsn v.core (r.pc + 1)))) ∧
    (AtInsn s v.core c r (vsWord 0x7F v) → exec (.vEnd v) s = .next ((s.retireInsn v.core r.pc).endCore v.core c)) ∧
    (v.core < 24 → (s.core v.core).run = some r → s.cmd? r.cmd = some c → s.canRun c = true → c.insnLimit ≤ r.count →
      exec (.instructionLimitExceeded v.core) s = .next (s.stopRun c 0x011A r.pc))) ∧
  (∀ (s : State) (core pc : Nat) (r : VRun), (s.core core).run = some r → core < 24 → pc < 2 ^ 13 →
    ((s.retireInsn core pc).core core).run = some { r with pc, count := r.count + 1 } ∧
    (s.retireInsn core pc).fld (Reg.vecStatus core) 0 13 = pc) ∧
  (∀ (s : State) (id : Nat) (c : Cmd), Runs s id 0x22 c → c.phase = .started →
    (((s.part c.part).progs.get (fun _ => {}) (c.f 48 0 8)).image = [] → exec (.vectorRun id) s = .next (s.endRun c 0x0119 0 none)) ∧
    (((s.part c.part).progs.get (fun _ => {}) (c.f 48 0 8)).image ≠ [] →
      ((c.f 44 0 32 = 0 ∨ ∃ k ∈ ones (c.f 44 0 32) 32, k ∉ s.coresOf c.part) →
        exec (.vectorRun id) s = .next (s.endRun c 0x0911 0 none)) ∧
      (c.f 44 0 32 ≠ 0 → (∀ k ∈ ones (c.f 44 0 32) 32, k ∈ s.coresOf c.part) →
        ((∃ k ∈ ones (c.f 44 0 32) 32, s.fld (Reg.vecFault k) 0 1 = 1) →
          exec (.vectorRun id) s = .next (s.endRun c 0x0821 0 none)) ∧
        ((∀ k ∈ ones (c.f 44 0 32) 32, s.fld (Reg.vecFault k) 0 1 = 0) → c.waitInvalidate = false →
          let ready := s.runReady c (ones (c.f 44 0 32) 32)
          ∃ t, exec (.vectorRun id) s = .next t ∧ (∀ k, k ∉ ready → (t.core k).run = (s.core k).run) ∧
          (ready ≠ [] → ∃ c', t.cmd? id = some c' ∧ c'.phase = .running ∧ c'.pkt = c.pkt) ∧
          ∀ k ∈ ready, (t.core k).run = some { cmd := id, handle := c.f 48 0 8 } ∧
            (∀ j, t.vreg k j = List.replicate 512 0) ∧
            (t.sreg k 14).toNat = (ones (c.f 44 0 32) 32).length)))) ∧
  (∀ (s : State) (id : Nat) (c : Cmd) (img : List Byte), Runs s id 0x86 c → 64 ≤ c.f 40 0 32 → c.f 40 0 32 ≤ 65600 →
    c.f 32 0 64 < 2 ^ 56 → c.missing (s.hostRanges (s.accOf c 31 true) (c.f 32 0 64) (c.f 40 0 32)) = [] →
    s.readDva (s.accOf c 31 true) (c.f 32 0 64) (c.f 40 0 32) = .ok img →
    (∀ n, imageFault img = some n → exec (.programLoad id) s = .next (s.endRun c 0x0118 n none)) ∧
    (imageFault img = none → (s.part c.part).progs.length < 256 →
      storeUsed (s.part c.part).progs + alignUp (c.f 40 0 32) 64 ≤ 0x1000000 * s.nSlices c.part →
      ∃ (t : State) (h : Nat), exec (.programLoad id) s = .next (t.endRun c 0 h none) ∧ h < 256 ∧ img ≠ [] ∧
        (s.part c.part).progs.any (fun q => q.1 == h) = false ∧ ((t.part c.part).progs.get (fun _ => {}) h).image = img ∧
        (∀ k, k ≠ h → (t.part c.part).progs.get (fun _ => {}) k = (s.part c.part).progs.get (fun _ => {}) k) ∧
        (t.part c.part).plog.length = (s.part c.part).plog.length + 1 ∧
        t = { s with regs := t.regs, parts := t.parts, free := t.free }))

/-- If every vector register that a core holds has 512 lanes, it still has after any step that answers a next state.
(spec/05_vector_engine.md, spec/95_what_each_step_holds.md.) -/
def Obligations.VectorRegistersKeepTheirLanes : Prop :=
  ∀ s t : State, s.lanesOk = true → step s = .next t → t.lanesOk = true

/-- In its turn on the KV manager, SEQ_CREATE makes a free sequence ID an idle sequence of length 0 in its pool and changes
no other sequence, pool or partition, or ends with 0x0104, 0x0502, 0x0505 or 0x0506; POOL_DEFINE and POOL_REMOVE make and
remove a pool, or end with 0x0507 or 0x0506; SEQ_FORK gives the child the parent's pages, each gaining one reference;
SEQ_FREE gives back one reference of each page and frees the ID; a reservation makes its sequence stepping with LENGTH and
RUN covering the new tokens and a page for every 16 of them, or reports a code and changes no sequence; lookup and insertion
complete with the tokens hit and the pages inserted. Which pages a pool hands out, and the layout of its free list, are the
model's, log entry 13. (spec/06_attention_and_kv_cache.md, spec/10_command_set.md.) -/
def Obligations.SequencesPoolsAndPrefixes : Prop :=
  (∀ (s : State) (id : Nat) (c : Cmd), Runs s id 0x38 c → s.kvTurn c = true →
    (listOk (c.f 48 0 64) = false → exec (.seqCreate id) s = .next (s.endRun c 0x0104 0 none)) ∧
    (listOk (c.f 48 0 64) = true →
      (s.seqIds c.part ≤ c.f 32 0 18 → exec (.seqCreate id) s = .next (s.endRun c 0x0502 0 none)) ∧
      (c.f 32 0 18 < s.seqIds c.part → (s.seq c.part (c.f 32 0 18)).state ≠ 0 →
        exec (.seqCreate id) s = .next (s.endRun c 0x0505 0 none)) ∧
      (c.f 32 0 18 < s.seqIds c.part → (s.seq c.part (c.f 32 0 18)).state = 0 →
        (s.pool c.part (c.f 36 0 4)).pages = 0 ∨ c.f 40 0 32 = 0 ∨ 2097152 < c.f 40 0 32 →
        exec (.seqCreate id) s = .next (s.endRun c 0x0506 0 none)) ∧
      (c.f 32 0 18 < s.seqIds c.part → (s.seq c.part (c.f 32 0 18)).state = 0 → (s.pool c.part (c.f 36 0 4)).pages ≠ 0 →
        0 < c.f 40 0 32 → c.f 40 0 32 ≤ 2097152 →
        ∃ t : State, exec (.seqCreate id) s = .next (t.endRun c 0 0 none) ∧
          t.seq c.part (c.f 32 0 18) =
            { state := 1, pool := c.f 36 0 4, maxTok := c.f 40 0 32, list := c.f 48 0 64, asid := c.asid,
              lastKey := (s.pool c.part (c.f 36 0 4)).salt } ∧
          (∀ q, q ≠ c.f 32 0 18 → t.seq c.part q = s.seq c.part q) ∧ (∀ i, t.pool c.part i = s.pool c.part i) ∧
          (∀ p, p ≠ c.part → t.part p = s.part p) ∧ t = { s with parts := t.parts }))) ∧
  (∀ (s : State) (id : Nat) (c : Cmd) (b : List Byte), Runs s id 0x82 c → s.kvTurn c = true → c.f 49 0 8 = 1 → c.block = some b →
    ((s.pool c.part (c.f 50 0 4)).pages ≠ 0 → exec (.poolDefine id) s = .next (s.endRun c 0x0507 0 none)) ∧
    ((s.pool c.part (c.f 50 0 4)).pages = 0 → poolOk b = false → exec (.poolDefine id) s = .next (s.endRun c 0x0506 0 none)) ∧
    ((s.pool c.part (c.f 50 0 4)).pages = 0 → poolOk b = true → ∀ s1 : State,
      s.writeDva (s.poolAcc c (poolOf b c.asid)) (num b 8 8)
        ((List.range (12 * num b 16 4)).map (Config.freeByte s.free) ++
          List.replicate ((poolOf b c.asid).metaBytes - 12 * num b 16 4) 0) = (s1, none) → s1.cmd? id = some c →
      ∃ t : State, exec (.poolDefine id) s = .next (t.endRun c 0 0 none) ∧ t.pool c.part (c.f 50 0 4) = poolOf b c.asid ∧
        (∀ i, i ≠ c.f 50 0 4 → t.pool c.part i = s1.pool c.part i) ∧ t = { s1 with parts := t.parts, free := t.free })) ∧
  (∀ (s : State) (id : Nat) (c : Cmd), Runs s id 0x82 c → s.kvTurn c = true → c.f 49 0 8 = 2 →
    ((s.pool c.part (c.f 50 0 4)).pages = 0 → exec (.poolRemove id) s = .next (s.endRun c 0 0 none)) ∧
    ((s.pool c.part (c.f 50 0 4)).pages ≠ 0 → s.poolUsed c.part (c.f 50 0 4) = true →
      exec (.poolRemove id) s = .next (s.endRun c 0x0507 0 none)) ∧
    ((s.pool c.part (c.f 50 0 4)).pages ≠ 0 → s.poolUsed c.part (c.f 50 0 4) = false →
      ∃ t : State, exec (.poolRemove id) s = .next (t.endRun c 0 0 none) ∧ t.pool c.part (c.f 50 0 4) = {} ∧
        (∀ i, i ≠ c.f 50 0 4 → t.pool c.part i = s.pool c.part i) ∧ (∀ q, t.seq c.part q = s.seq c.part q) ∧
        t = { s with parts := t.parts })) ∧
  (∀ (s : State) (id : Nat) (c : Cmd), Runs s id 0x39 c → s.kvTurn c = true → listOk (c.f 48 0 64) = true →
    let a := s.seq c.part (c.f 32 0 18)
    (s.forkCheck c.part (c.f 32 0 18) (c.f 36 0 18) (c.f 40 0 32) ≠ 0 →
      exec (.seqFork id) s =
        .next (s.endRun c (s.forkCheck c.part (c.f 32 0 18) (c.f 36 0 18) (c.f 40 0 32)) 0 none)) ∧
    (∀ (pages : List Nat) (s1 s2 : State), s.forkCheck c.part (c.f 32 0 18) (c.f 36 0 18) (c.f 40 0 32) = 0 →
      kvList c a 0 a.count s = .ok (pages, s) →
      kvPutList c { a with maxTok := c.f 40 0 32, list := c.f 48 0 64, asid := c.asid } 0 pages s = .ok ((), s1) →
      kvAdd c c.part a.pool pages s1 = .ok ((), s2) → s2.cmd? id = some c →
      exec (.seqFork id) s = .next ((s2.updSeq c.part (c.f 36 0 18)
        fun _ => { a with maxTok := c.f 40 0 32, list := c.f 48 0 64, asid := c.asid }).endRun c 0 0 none))) ∧
  (∀ (s : State) (id : Nat) (c : Cmd), Runs s id 0x3A c → s.kvTurn c = true →
    let a := s.seq c.part (c.f 32 0 18)
    (s.seqIds c.part ≤ c.f 32 0 18 ∨ a.state = 0 → exec (.seqFree id) s = .next (s.endRun c 0x0502 0 none)) ∧
    (c.f 32 0 18 < s.seqIds c.part → a.state = 2 → exec (.seqFree id) s = .next (s.endRun c 0x0504 0 none)) ∧
    (∀ (pages : List Nat) (s1 : State), c.f 32 0 18 < s.seqIds c.part → a.state ≠ 0 → a.state ≠ 2 →
      kvList c a 0 a.count s = .ok (pages, s) → kvDrop c c.part a.pool pages s = .ok ((), s1) → s1.cmd? id = some c →
      exec (.seqFree id) s = .next ((s1.updSeq c.part (c.f 32 0 18) fun _ => {}).endRun c 0 0 none))) ∧
  (∀ (s t : State) (c : Cmd) (p i : Nat) (pages : List Nat),
    (kvAdd c p i pages s = .ok ((), t) →
      (∀ g, (t.pool p i).ref g = (s.pool p i).ref g + pages.count g) ∧ (∀ q, t.seq p q = s.seq p q)) ∧
    (kvDrop c p i pages s = .ok ((), t) →
      (∀ g, (t.pool p i).ref g = (s.pool p i).ref g - pages.count g) ∧ (∀ q, t.seq p q = s.seq p q))) ∧
  (∀ (s : State) (id : Nat) (c : Cmd) (es : List (List Byte)) (s1 : State) (bad : Nat), Runs s id 0x3B c → s.kvTurn c = true →
    s.reserveList c = .ok es →
    s.reserveAll c (s.reg64 (Reg.stepLo c.part) (Reg.stepHi c.part)) [] es (c.f 40 0 64) 0 = (s1, bad, none) → s1.cmd? id = some c →
    exec (.kvReserve id) s = .next (s1.endRun c (if bad = 0 then 0 else 0x0004) (min bad 0xFFFFFF) none)) ∧
  (∀ (s t : State) (c : Cmd) (p step : Nat) (seen : List Nat) (e w : List Byte) (done : Bool),
    kvEntry c p step seen e s = .ok ((w, done), t) →
    let q := bits (num e 0 4) 0 18
    (done = false → num w 0 2 ≠ 0 ∧ ∀ r, t.seq p r = s.seq p r) ∧
    (q < s.seqIds p → (s.seq p q).state ≠ 0 → ((s.seq p q).state = 2 ∨ q ∈ seen) → num w 0 2 = 0x0504 ∧ done = false ∧ t = s) ∧
    (done = true → num w 0 2 = 0 ∧ q < s.seqIds p ∧ q ∉ seen ∧ (s.seq p q).state ≠ 0 ∧ (s.seq p q).state ≠ 2 ∧ 0 < num e 4 4 ∧
      (s.seq p q).length + num e 4 4 ≤ (s.seq p q).maxTok ∧ (t.seq p q).state = 2 ∧ (t.seq p q).step = step % 2 ^ 32 ∧
      (t.seq p q).length + (t.seq p q).run = (s.seq p q).length + num e 4 4 ∧
      ((s.seq p q).count = ceilDiv (s.seq p q).length 16 →
        (t.seq p q).count = ceilDiv ((s.seq p q).length + num e 4 4) 16) ∧
      ∀ r, r ≠ q → t.seq p r = s.seq p r)) ∧
  (∀ (s : State) (id : Nat) (c : Cmd), Runs s id 0x3C c → s.kvTurn c = true → c.f 32 0 18 < s.seqIds c.part →
    let x := s.seq c.part (c.f 32 0 18)
    let n := c.f 36 0 32
    x.state = 1 →
    (x.length ≠ 0 ∨ n = 0 ∨ c.f 40 0 64 = 0 → exec (.prefixLookup id) s = .next (s.endRun c 0 0 none)) ∧
    (∀ (h : Hits) (s1 s2 : State), x.length = 0 → n ≠ 0 → c.f 40 0 64 ≠ 0 → c.f 40 0 64 % 4 = 0 → dvaOk (c.f 40 0 64) = true →
      kvLookup c c.part x.pool ((n - 1) / 16) (c.f 40 0 64) noParent (s.pool c.part x.pool).salt s = .ok (h, s1) →
      (if h.pages = [] then s2 = s1 else kvPin c c.part (c.f 32 0 18) h s1 = .ok ((), s2)) →
      (s2.countHits c.part h).cmd? id = some c →
      exec (.prefixLookup id) s = .next ((s2.countHits c.part h).endRun c 0 (16 * h.pages.length) none))) ∧
  (∀ (s : State) (c : Cmd) (p i n ta parent key : Nat),
    let pl := s.pool p i
    (∀ toks : List Nat, kvTokens c ta 16 s = .ok (toks, s) → pl.entryFor (chainKey key toks) = none →
      kvLookup c p i (n + 1) ta parent key s = .ok (⟨[], key, 0⟩, s)) ∧
    (∀ (t : State) (h : Hits), kvLookup c p i n ta parent key s = .ok (h, t) → h.pages.length ≤ n ∧ h.fails ≤ 1 ∧
      ∀ q, t.seq p q = s.seq p q)) ∧
  (∀ (s : State) (id : Nat) (c : Cmd), Runs s id 0x3D c → s.kvTurn c = true → c.f 32 0 18 < s.seqIds c.part →
    let x := s.seq c.part (c.f 32 0 18)
    x.state = 1 → ∀ (pages : List Nat) (r : Nat × Nat × Nat × Bool) (s1 : State),
      kvList c x 0 (x.length / 16) s = .ok (pages, s) →
      kvInsert c c.part x.pool (pages.drop x.keyPages)
        (if x.keyPages = 0 then noParent else pages.getD (x.keyPages - 1) noParent) x.lastKey s = .ok (r, s1) →
      s1.cmd? id = some c →
      exec (.prefixInsert id) s = .next ((s1.updSeq c.part (c.f 32 0 18)
        fun y => { y with keyPages := y.keyPages + r.2.1, lastKey := r.2.2.1 }).endRun c (if r.2.2.2 then 0x0005 else 0) r.1 none))

/-- KV_APPEND appends the step's tokens page by page and ends with its conversion status. ATTEND_DECODE ends with 0x050C where the
scratch buffer is too small, and otherwise enters the dispenser with every chunk to do, the chunks numbered sequence by sequence
without gap; a core that asks is granted the lowest chunk left, and an idle one takes another core's second. A chunk that checks joins
the finished ones with its partials in the scratch buffer, and one that fails its check twice puts its unit out of service and all the
unit's chunks back. ATTEND_PREFILL computes and stores its rows. MOE_ROUTE drops every assignment of a token with a NaN logit, keeps of
each expert at most CAP assignments, and writes its four arrays. Where in its share of the scratch buffer a chunk's partials lie is the
model's choice, log entry 67. (spec/06_attention_and_kv_cache.md, spec/04_compression_and_sparsity.md, spec/10_command_set.md,
spec/12_integrity_and_recovery.md.) -/
def Obligations.AttentionAppendAndRouting : Prop :=
  (∀ (s : State) (id : Nat) (c : Cmd) (b : List Byte) (kt vt : Tensor) (es : List (List Byte)) (ks vs : List (List Val))
      (jobs : List AppendJob) (s1 : State) (flags lost : Nat),
    Runs s id 0x27 c → c.block = some b → num b 14 2 = 0 → num b 80 16 = 0 →
    s.parseTensor c.part b 16 false = .ok kt → s.parseTensor c.part b 48 false = .ok vt → kt.packed = false → vt.packed = false →
    s.stepList c (num b 0 8) (num b 8 4) = .ok es →
    let core := 3 * s.firstSlice c.part
    let xs := s.stepSeqs c.part es [] 0
    let tag := num b 13 1
    let fl := if List.range (stepRows xs) = [] then 0 else
      s.scaleFlag (s.accOf c core false) { kt with rows := (List.range (stepRows xs)).length } |||
        s.scaleFlag (s.accOf c core false) { vt with rows := (List.range (stepRows xs)).length }
    (xs.any (fun x => decide ((s.pool c.part x.seq.pool).layers ≤ num b 12 1)) = false →
      ((tagOk tag 256 = false ∧ tagOk tag 64 = false) ∨ xs.any (fun x => !(s.pool c.part x.seq.pool).fits tag) = true) →
      ∀ chk, exec (.kvAppend id chk) s = .next (s.endRun c 0x0508 0 none)) ∧
    (xs.any (fun x => decide ((s.pool c.part x.seq.pool).layers ≤ num b 12 1)) = false →
      (tagOk tag 256 = true ∨ tagOk tag 64 = true) → xs.any (fun x => !(s.pool c.part x.seq.pool).fits tag) = false →
      s.stepShape c.part xs kt (·.heads) = true → s.stepShape c.part xs vt (·.heads) = true →
      s.readRows (s.accOf c core false) kt none (List.range (stepRows xs)) = .ok ks →
      s.readRows (s.accOf c core false) vt none (List.range (stepRows xs)) = .ok vs → s.appendJobs c ks vs xs = .ok jobs →
      (s.touch c.id core).appendAll c tag (jobs.flatMap (s.appendPages c.part (num b 12 1))) fl 0 = (s1, flags, lost, none) →
      (c.convStatus flags).1 ≠ 0x0111 → ∀ d : Cmd, (s1.noteConv core flags lost).cmd? id = some d →
      exec (.kvAppend id .ok) s =
        .next ((s1.noteConv core flags lost).endRun d (c.convStatus flags).1 (c.convStatus flags).2 none))) ∧
  (∀ (s : State) (id : Nat) (c : Cmd) (x : AttArgs) (es : List (List Byte)) (qs : List AttSeq), Runs s id 0x26 c →
    c.phase = .started → s.parseAtt c = .ok x → x.prob = 0 → x.chunk ≤ 65536 → s.stepList c x.list x.count = .ok es →
    s.attCheck c.part x (s.stepSeqs c.part es [] 0) = 0 → (s.coresOf c.part).any s.attServes = true →
    let cp := s.chunkPages c.part x (s.stepSeqs c.part es [] 0)
    s.attSeqs c x cp (s.stepSeqs c.part es [] 0) 0 0 = .ok qs →
    let n := qs.foldl (fun n q => n + q.chunks) 0
    (x.chunk ≠ 0 → cp = x.chunk) ∧ (x.chunk = 0 → 8 ≤ cp) ∧ qs.Pairwise (fun a b => a.first + a.chunks ≤ b.first) ∧
    (∀ i, i < n ↔ ∃ q ∈ qs, q.first ≤ i ∧ i < q.first + q.chunks) ∧
    (x.size < scratchNeed s c.part x qs → exec (.attendDecode id) s = .next (s.endRun c 0x050C 0 none)) ∧
    (scratchNeed s c.part x qs ≤ x.size → s.attTurn c = true → n ≠ 0 → ∀ (s1 : State) (outs : List (Nat × List Nat)),
      s.zeroRows (s.accOf c (3 * s.firstSlice c.part) false) x.o qs [] = (s1, outs, none) →
      ∃ t : State, exec (.attendDecode id) s = .next t ∧ t = { s1 with parts := t.parts, fe := t.fe } ∧
        (t.part c.part).att = (s1.part c.part).att ++
          [{ cmd := c.id, seqs := qs, pages := cp, todo := List.range n, left := List.range n, outs,
             limit := qs.any (fun q => 16 < q.run) }] ∧
        t.fe = { s1.fe with
          cmds := s1.fe.cmds.map (fun d => if d.id = c.id then { d with phase := .running } else d) })) ∧
  (∀ dim heads run chunks : Nat, scratchShare dim heads run chunks % 64 = 0 ∧
    4 * (dim + 2) * heads * run * chunks ≤ scratchShare dim heads run chunks ∧
    scratchShare dim heads run chunks < 4 * (dim + 2) * heads * run * chunks + 64) ∧
  (∀ (s : State) (core p cmd i : Nat) (c : Cmd), core < 24 → s.coreOwner core = some p → s.active = true →
    (s.part p).resetDue = false → s.attServes core = true →
    (lowestChunk (s.part p).att = some (cmd, i) → s.cmd? cmd = some c → s.canRun c = true → s.coreHeld c core = false →
      (s.core core).chunks.length < 2 → ∃ t, exec (.tileRequest core true false) s = .next t ∧
        (t.core core).chunks = (s.core core).chunks ++ [(cmd, i)] ∧
        (t.part p).att = (s.part p).att.map (fun o =>
          if o.cmd = cmd then { o with todo := o.todo.filter (· != i) } else o)) ∧
    (∀ (victim : Nat) (h : Nat × Nat), victim < 24 → s.coreOwner victim = some p → lowestChunk (s.part p).att = none →
      (s.core victim).chunks = [h, (cmd, i)] → (s.core core).chunks = [] → s.cmd? cmd = some c → s.canRun c = true →
      s.coreHeld c core = false → ∃ t, exec (.tileSteal core victim true) s = .next t ∧ (t.core victim).chunks = [h] ∧
        (t.core core).chunks = [(cmd, i)])) ∧
  (∀ (s : State) (core i : Nat) (op : AttOp) (c : Cmd) (x : AttArgs) (q : AttSeq), core < 24 →
    s.attRuns core = some (c, x, op, i, q) → s.canRun c = true →
    exec (.attentionChunkDone core .ok []) s = .next ((s.chunkPasses c core x op i q).endNoAttention c.part) ∧
    exec (.attentionChunkDone core .transient []) s =
      .next (((s.attReplay c core).chunkPasses c core x op i q).endNoAttention c.part) ∧
    ((∃ k ∈ s.coresOf c.part, k ≠ core ∧ s.attServes k = true) →
      ∃ t, exec (.attentionChunkDone core .permanent []) s = .next t ∧ t.fld (Reg.attFault core) 0 1 = 1 ∧
        (t.core core).chunks = [] ∧
        (s.pstate c.part ≠ 4 → ∀ h ∈ (s.core core).chunks, (∃ o ∈ (s.part c.part).att, o.cmd = h.1) →
          ∃ o ∈ (t.part c.part).att, o.cmd = h.1 ∧ h.2 ∈ o.todo))) ∧
  (∀ (s s0 s1 : State) (c : Cmd) (core i sp : Nat) (x : AttArgs) (op : AttOp) (q : AttSeq) (ds : List (Nat × PageData))
      (qrows : List (List (Val × Val))),
    let pl := s.pool c.part q.pool
    let rows := chunkRows x pl q qrows ds
    let bs := rows.flatMap Acc3.scratch
    s.chunkData { s.poolAcc c pl with source := core } x pl q (op.chunkPages q i) = (ds, none) →
    s0 = s.count core 0x46 (attUnits pl ds) →
    collect (s0.queryRow (s0.accOf c core false) x.q) ((List.range q.run).map (q.row + ·)) = .ok qrows →
    (sp = if ds.any (fun d => d.2.special) ∨ s0.scaleFlag (s0.accOf c core false) (x.q.rowsAt q.row q.run) ≠ 0 then
      scaleSpecial else 0) →
    ((s0.noteConv core sp 0).popChunk core).writeDva (s0.accOf c core false)
      (x.scratch + q.share + (i - q.first) * bs.length) bs = (s1, none) →
    (∃ k, k < q.chunks ∧ q.first + k ≠ i ∧ ∀ e ∈ op.partials, e.1 ≠ q.first + k) →
    ((s.chunkPasses c core x op i q).part c.part).att = (s.part c.part).att.map (fun o => if o.cmd = c.id then
      { op with
        left := op.left.filter (· != i)
        partials := op.partials ++ [(i, rows.map Acc3.toList)]
        flags := op.flags ||| sp } else o) ∧
    ((s.chunkPasses c core x op i q).core core).chunks = (s.core core).chunks.drop 1 ∧
    (s.chunkPasses c core x op i q).mem = s1.mem) ∧
  (∀ (s : State) (id core : Nat) (c : Cmd) (x : AttArgs) (es : List (List Byte)) (qs : List AttSeq),
    Runs s id 0x25 c → s.parseAtt c = .ok x → x.prob ≤ 1 → x.chunk % 16 = 0 → x.chunk ≤ 512 →
    s.stepList c x.list x.count = .ok es → s.attCheck c.part x (s.stepSeqs c.part es [] 0) = 0 → s.noArray c.part = false →
    s.fabTurn c = true → s.prefillCore c = some core → s.vecTurn c [core] = true →
    s.attSeqs c x 1 (s.stepSeqs c.part es [] 0) 0 0 = .ok qs →
    let u := (s.touch c.id core).prefillCounts core x
    let a := u.accOf c core false
    let n := qs.foldl (fun n q => max n (q.row + q.run)) 0
    ∀ (s1 s2 : State) (outs : List (Nat × List Nat)) (fl fl2 lost : Nat) (d : Cmd),
      u.prefillSeqs c core x qs = (s1, outs, fl, none) →
      (s1.prefillWrote a core x).putAcross a x.o n outs = (s2, fl2, lost, none) →
      (c.convStatus (fl ||| fl2)).1 ≠ 0x0111 → (s2.noteConv core fl2 lost).cmd? id = some d →
      exec (.attendPrefill id []) s = .next ((s2.noteConv core fl2 lost).endRun d (c.convStatus (fl ||| fl2)).1
        (c.convStatus (fl ||| fl2)).2 x.o.loc.watched)) ∧
  (∀ (gate k t : Nat) (renorm : Bool) (bias : Option (List Nat)) (logits : List Nat),
    (logits.any isNan32 = true →
      tokenAssigns gate k renorm bias t logits = (List.range k).map (fun r => ⟨t, r, 0x1FF, 0, 2⟩)) ∧
    (logits.any isNan32 = false → k ≤ logits.length → (∀ b, bias = some b → b.length = logits.length) → gate < 3 →
      (tokenAssigns gate k renorm bias t logits).length = k ∧
      ((tokenAssigns gate k renorm bias t logits).map (·.expert)).Nodup ∧
      ∀ x ∈ tokenAssigns gate k renorm bias t logits, x.token = t ∧ x.expert < logits.length ∧ x.drop = 0)) ∧
  (∀ (cap : Nat) (xs : List Assign), (capAssigns cap [] xs).length = xs.length ∧
    ∀ e, ((capAssigns cap [] xs).filter (fun x => x.drop == 0 && x.expert == e)).length =
      if cap = 0 then (xs.filter (fun x => x.drop == 0 && x.expert == e)).length
      else min cap (xs.filter (fun x => x.drop == 0 && x.expert == e)).length) ∧
  (∀ (s : State) (id : Nat) (c : Cmd) (b : List Byte) (chk : Check),
    Runs s id 0x24 c → c.block = some b → num b 73 1 / 8 = 0 → num b 74 2 = 0 → num b 80 16 = 0 →
    (∀ st, s.parseTensor c.part b 0 false = .error st → exec (.moeRoute id chk) s = .next (s.endRun c st 0 none)) ∧
    (∀ t, s.parseTensor c.part b 0 false = .ok t →
      (num b 73 1 % 4 = 3 → exec (.moeRoute id chk) s = .next (s.endRun c 0x0110 0 none)) ∧
      (num b 73 1 % 4 ≠ 3 → (1 < t.elem ∨ 2 ^ 24 < t.rows ∨ 512 < t.cols ∨ num b 72 1 = 0 ∨ 8 < num b 72 1 ∨ t.cols < num b 72 1) →
        exec (.moeRoute id chk) s = .next (s.endRun c 0x0116 0 none)))) ∧
  (∀ (s : State) (id k0 : Nat) (rest : List Nat) (c : Cmd) (b : List Byte) (t : Tensor) (rows : List (List Val))
      (bias : Option (List Byte)),
    Runs s id 0x24 c → c.block = some b → num b 73 1 / 8 = 0 → num b 74 2 = 0 → num b 80 16 = 0 → num b 73 1 % 4 ≠ 3 →
    s.parseTensor c.part b 0 false = .ok t → t.elem ≤ 1 → t.rows ≤ 2 ^ 24 → t.cols ≤ 512 → t.packed = false →
    0 < num b 72 1 → num b 72 1 ≤ 8 → num b 72 1 ≤ t.cols →
    (∀ x ∈ [num b 40 8, num b 48 8, num b 56 8, num b 64 8], x % 64 = 0 ∧ dvaOk x = true) → dvaOk (num b 32 8) = true →
    num b 32 8 % 4 = 0 → (∀ x ∈ s.coreMask c.part (c.f 44 0 32), (s.coresOf c.part).contains x = true) →
    s.moeCores c = k0 :: rest → s.vecTurn c (k0 :: rest) = true →
    let u := (k0 :: rest).foldl (fun s x => s.touch c.id x) s
    let a := s.accOf c k0 false
    u.readTensor a t = .ok rows →
    (if num b 32 8 = 0 then bias = none else ∃ bs, u.readDva a (num b 32 8) (4 * t.cols) = .ok bs ∧ bias = some bs) →
    let xs := capAssigns (num b 76 4) [] (rows.zipIdx.flatMap (fun (row, i) =>
      tokenAssigns (num b 73 1 % 4) (num b 72 1) (bitB (num b 73 1) 2) (bias.map (unpack 32 t.cols)) i (row.map toF32)))
    let arr := moeArrays t.cols xs
    let ws := [(num b 40 8, arr.1), (num b 48 8, arr.2.1), (num b 56 8, arr.2.2.1), (num b 64 8, arr.2.2.2)]
    let n := (xs.filter (fun x => x.drop ≠ 0)).length
    ∀ (s1 : State) (d : Cmd), u.writeAll a ws = (s1, none) →
      let s2 := (s1.dropWritten a (k0 :: rest) (ws.map (fun w => (w.1, w.2.length)))).count k0 0x28 n
      s2.cmd? id = some d →
      exec (.moeRoute id .ok) s = .next (s2.endRun d (if n = 0 then 0 else 0x0003) (min n 0xFFFFFF) none))

/-- A MSG_SEND whose checks pass hands its message to its port and waits for it; the first check that fails gives 0x0710,
0x0701, 0x0702, 0x0705 or 0x0104. A posted buffer joins its endpoint's queue and its command waits; a posted region or fence range is
registered and its command completes; a removal takes the entry away and waits for messages accepted under it. A collective
begins, its command holding what it will write, and in its second event writes its destination and completes. JOB_OPEN and
JOB_CLOSE, once no network command is in flight, set and clear the job. A message that waited on RNR beyond its timeout ends
with 0x0401, and one that had begun leaves a CANCEL. That a collective is two events, and what its peers contribute, are the
model's, log entry 26. (spec/13_network_ports.md, spec/10_command_set.md.) -/
def Obligations.MessagesPostsAndCollectives : Prop :=
  (∀ (s : State) (id : Nat) (c : Cmd) (b : List Byte) (l : Loc), Runs s id 0x40 c → c.phase = .started → c.block = some b →
    num b 25 1 < 4 → num b 26 2 < 4096 → num b 28 2 < 4096 → num b 30 34 = 0 → c.sendArgs.fieldsOk = true →
    s.parseLoc c.part c.sendArgs.loc true = .ok l →
    let a := c.sendArgs
    (s.jobGone c = true → exec (.msgSend id) s = .next (s.endRun c 0x0710 0 none)) ∧
    (s.jobGone c = false → (s.portsOf c.part).contains a.port = false → exec (.msgSend id) s = .next (s.endRun c 0x0701 0 none)) ∧
    (s.jobGone c = false → (s.portsOf c.part).contains a.port = true → s.linkUp a.port = false ∨ s.peerReady a.port = false →
      exec (.msgSend id) s = .next (s.endRun c 0x0702 0 none)) ∧
    (s.jobGone c = false → (s.portsOf c.part).contains a.port = true → s.linkUp a.port = true → s.peerReady a.port = true →
      (a.sizeOk = false → exec (.msgSend id) s = .next (s.endRun c 0x0705 0 none)) ∧
      (a.sizeOk = true → l.inSpace a.bytes = false → exec (.msgSend id) s = .next (s.endRun c 0x0104 0 none)) ∧
      (a.sizeOk = true → l.inSpace a.bytes = true → s.sendWaits c = false →
        ∃ t : State, exec (.msgSend id) s = .next (t.outerRuns id) ∧
          (t.port a.port).msgs = (s.port a.port).msgs ++
            [{ cmd := some id, src := a.src, dst := a.dst, type := a.op + 1, total := segsOf a.bytes }] ∧
          (∀ n, n ≠ a.port → t.port n = s.port n) ∧ t.cmd? id = some { c with phase := .running } ∧
          t = { s with ports := t.ports, fe := { s.fe with cmds := t.fe.cmds } }))) ∧
  (∀ (s : State) (id : Nat) (c : Cmd), Runs s id 0x41 c → c.phase = .started →
    let a := c.postArgs
    (s.postCheck c ≠ 0 →
      (a.kind = 0 ∨ 4 ≤ a.kind → exec (.recvPostBuffer id) s = .next (s.endRun c (s.postCheck c) 0 none)) ∧
      (a.kind = 1 ∨ 4 ≤ a.kind → exec (.recvPostRegion id) s = .next (s.endRun c (s.postCheck c) 0 none)) ∧
      (a.kind = 2 ∨ 4 ≤ a.kind → exec (.recvPostFences id) s = .next (s.endRun c (s.postCheck c) 0 none)) ∧
      (a.kind = 3 ∨ 4 ≤ a.kind → exec (.recvPostRemove id) s = .next (s.endRun c (s.postCheck c) 0 none))) ∧
    (s.postCheck c = 0 → s.portsOf c.part ≠ [] → s.jobGone c = false →
      (a.kind = 0 → ∃ t : State, exec (.recvPostBuffer id) s = .next (t.outerRuns id) ∧
        (t.part c.part).buffers = (s.part c.part).buffers ++
          [{ ep := a.ep, cmd := c.id, addr := a.addr, bytes := a.bytes, asid := c.asid, user := c.cls == 2 }] ∧
        t.cmd? id = some { c with phase := .running } ∧
        t = { s with parts := t.parts, fe := { s.fe with cmds := t.fe.cmds } }) ∧
      (a.kind = 1 → ∃ t : State, exec (.recvPostRegion id) s = .next (t.endRun c 0 0 none) ∧ t = { s with parts := t.parts } ∧
        (t.part c.part).regions = (s.part c.part).regions ++
          [{ ep := a.ep, key := a.key, kind := 1, addr := a.addr, bytes := a.bytes, asid := c.asid, user := c.cls == 2 }]) ∧
      (a.kind = 2 → ∃ t : State, exec (.recvPostFences id) s = .next (t.endRun c 0 0 none) ∧ t = { s with parts := t.parts } ∧
        (t.part c.part).regions = (s.part c.part).regions ++
          [{ ep := a.ep, key := a.key, kind := 2, addr := 0, bytes := a.count, asid := c.asid, user := c.cls == 2 }]) ∧
      (a.kind = 3 → a.tgt ≠ 0 →
        (s.entryBusy c.part a = false →
          ∃ t : State, exec (.recvPostRemove id) s = .next (t.endRun c 0 0 none) ∧ t = { s with parts := t.parts } ∧
            (t.part c.part).regions =
              (s.part c.part).regions.filter (fun r => !(r.kind == a.tgt && r.ep == a.ep && r.key == a.key))) ∧
        (s.entryBusy c.part a = true →
          ∃ t : State, exec (.recvPostRemove id) s = .next (t.outerRuns id) ∧ t.cmd? id = some { c with phase := .running } ∧
            (t.part c.part).regions =
              (s.part c.part).regions.filter (fun r => !(r.kind == a.tgt && r.ep == a.ep && r.key == a.key)))) ∧
      (a.kind = 3 → a.tgt = 0 →
        (∀ b, (s.part c.part).buffers.find? (fun b => b.ep == a.ep && !s.filling b.cmd) = some b →
          ((s.removeBuffer c.part a.ep).part c.part).buffers = (s.part c.part).buffers.filter (fun y => y.cmd != b.cmd)) ∧
        ∀ d : Cmd, (s.removeBuffer c.part a.ep).cmd? id = some d →
          exec (.recvPostRemove id) s = .next ((s.removeBuffer c.part a.ep).endRun d 0 0 none)))) ∧
  (∀ (s : State) (id : Nat), (s.outerRuns id).ports = s.ports ∧
    ((s.outerRuns id).cmd? id).map (·.phase) = (s.cmd? id).map (·.phase)) ∧
  (∀ (s : State) (id op : Nat) (i : Instr) (c : Cmd) (b : List Byte) (x : Coll),
    (op = 0 ∧ i = .allReduce id) ∨ (op = 1 ∧ i = .allGather id) ∨ (op = 2 ∧ i = .reduceScatter id) ∨ (op = 3 ∧ i = .allToAll id) →
    Runs s id 0x42 c → c.block = some b → num b 64 1 = op → s.parseColl c = .ok x →
    (s.jobGone c = true → exec i s = .next (s.endRun c 0x0710 0 none)) ∧
    (s.jobGone c = false → s.portsCheck c.part x.ports ≠ 0 → exec i s = .next (s.endRun c (s.portsCheck c.part x.ports) 0 none)) ∧
    (s.jobGone c = false → s.portsCheck c.part x.ports = 0 → c.phase = .started →
      s.checkRange (s.accOf c 31 false) x.buf x.bufN true = none →
      ∀ (rows : List (List Byte)) (scales : List Byte) (flags : Nat),
      s.collResult (s.accOf c 31 false) x = .ok (rows, scales, flags) →
      ∃ (t : State) (c' : Cmd), exec i s = .next (t.outerRuns id) ∧ t.cmd? id = some c' ∧ c'.phase = .running ∧
        c'.aux = (rows.flatten ++ scales).map BitVec.toNat ∧ c'.flags = flags ∧ c'.pkt = c.pkt ∧ t.ports = s.ports) ∧
    (s.jobGone c = false → s.portsCheck c.part x.ports = 0 → c.phase = .running → ∀ s1 s2 : State,
      s.writeRows (s.accOf c 31 false) x.dst 0 (chop x.dst.rowBytes x.dst.rows
        ((c.aux.map (BitVec.ofNat 8)).take (x.dst.rows * x.dst.rowBytes))) = (s1, none) →
      s1.writeDva (s.accOf c 31 false) x.dst.scale
        ((c.aux.map (BitVec.ofNat 8)).drop (x.dst.rows * x.dst.rowBytes)) = (s2, none) → s2.cmd? id = some c →
      exec i s = .next ((s2.noteConv (3 * s.firstSlice c.part) c.flags 0).endRun c (c.convStatus c.flags).1
        (c.convStatus c.flags).2 none))) ∧
  (∀ (x : Coll) (draw : Nat) (rows : List (List Byte)), x.op = 1 → x.dst.rows = x.n * x.src.rows → x.rank < x.n →
    rows.length = x.src.rows → ((x.moved draw rows).drop (x.rank * x.src.rows)).take x.src.rows = rows) ∧
  (∀ (s : State) (id : Nat) (c : Cmd) (b : List Byte), Runs s id 0x42 c → c.block = some b → num b 65 1 < 8 → num b 66 1 < 2 →
    num b 67 1 = 0 → num b 73 1 = 0 → num b 78 2 < 4096 → num b 96 32 = 0 →
    (num b 64 1 = 0x10 →
      (s.jobBusy c = true → ∃ t : State, exec (.jobOpen id) s = .next (t.outerRuns id) ∧ t.cmd? id = some { c with phase := .running } ∧
        t = { s with fe := { s.fe with cmds := t.fe.cmds } }) ∧
      (s.jobBusy c = false → num b 74 2 = 0 ∨ s.jobOf c.part = (num b 74 2, num b 76 2) →
        exec (.jobOpen id) s = .next (s.endRun c 0x0104 0 none)) ∧
      (s.jobBusy c = false → num b 74 2 ≠ 0 → s.jobOf c.part ≠ (num b 74 2, num b 76 2) →
        ∃ t : State, exec (.jobOpen id) s = .next (t.endRun c 0 0 none) ∧ s.onlyRegs t [Reg.job c.part, Reg.abort c.part] ∧
          t.jobOf c.part = (num b 74 2, num b 76 2) ∧ t.fld (Reg.abort c.part) 1 3 = 0)) ∧
    (num b 64 1 = 0x11 → s.jobBusy c = false →
      ∃ t : State, exec (.jobClose id) s = .next (t.endRun c 0 0 none) ∧ s.onlyRegs t [Reg.abort c.part] ∧
        t.jobOf c.part = (0, 0))) ∧
  (∀ (s : State) (id t : Nat) (c : Cmd) (r : Nat), s.cmd? id = some c → s.active = true → c.infinite = false →
    (List.range 4).findSome? (fun n => ((s.port n).msgs.find? (fun m => m.cmd == some id)).bind (·.rnrSince)) = some r →
    r + 1000 * (c.timeoutM1 + 1) ≤ (s.atTime t).now →
    exec (.rnrWaitTimeout id t) s = .next (((s.atTime t).endMsgs [id]).retire c 0x0401 0 false
      (some (r + 1000 * (c.timeoutM1 + 1))))) ∧
  (∀ (s : State) (ids : List Nat) (n : Nat), n < 4 →
    ((s.endMsgs ids).port n).msgs =
      (s.port n).msgs.filterMap (fun m => if m.cmd.any ids.contains then
        (if m.seq.isSome then
          some { m with cmd := none, type := 5, sent := 0, total := 1, rnrUntil := none, rnrSince := none } else none)
        else some m))

/-- A frame that is malformed is discarded and counted; during a stop the first frame of a port while the domains halt is held,
the model's reading of log entry 71, and every other is discarded and counted; a sequenced frame under another epoch
or an older job is dropped and counted; a frame seen before is only acknowledged; one that may be worked on now is placed,
refused or answered with RNR by its message's verdict, and one ahead of its turn is held. An accepted ATOMIC_ADD adds its
operand to the fence, and an accepted segment of a message is stored at its place. In-order frames advance the acknowledged
PSN. An acknowledgement frees the frames before it, returns credits and moves the window; a NAK resends its frame; an RNR
sets its message back; a REFUSE ends its command with 0x0704. (spec/13_network_ports.md.) -/
def Obligations.FramesAreReceived : Prop :=
  (∀ (s : State) (n ty : Nat) (f : Frame) (i : Instr),
    (ty = 1 ∧ i = .rxWrite n f) ∨ (ty = 2 ∧ i = .rxSend n f) ∨ (ty = 3 ∧ i = .rxAtomicAdd n f) ∨ (ty = 4 ∧ i = .rxAbort n f) ∨
      (ty = 5 ∧ i = .rxCancel n f) ∨ (ty = 0x10 ∧ i = .rxAck n f) ∨ (ty = 0x11 ∧ i = .rxNak n f) ∨ (ty = 0x12 ∧ i = .rxRnr n f) ∨
      (ty = 0x13 ∧ i = .rxRefuse n f) →
    n < 4 → s.alive = true → s.linkUp n = true → f.hdr.type = ty →
    let u := s.updPort n fun x => { x with lastRx := s.now }
    (s.stopped = true → exec i s = .next (u.stopFrame n i)) ∧
    (s.stopped = false → frameOk f = false →
      ∃ t, exec i s = .next t ∧ t.fld (Reg.net n 0x64) 0 32 = min (s.fld (Reg.net n 0x64) 0 32 + 1) (2 ^ 32 - 1) ∧
        u.onlyRegs t [Reg.net n 0x64]) ∧
    (s.stopped = false → frameOk f = true →
      (ty ≤ 5 → exec i s = .next (u.rxSeq n f)) ∧
      (ty = 0x10 → exec i s = .next (u.rxCommon n f)) ∧
      (ty = 0x11 → ∀ y, ((u.rxCommon n f).port n).unacked.find? (fun y => y.frame.hdr.psn == f.hdr.psn) = some y →
        (∃ p, (u.rxCommon n f).portOwner n = some p) → exec i s = .next ((u.rxCommon n f).resend n y y.rto)) ∧
      (ty = 0x12 → exec i s = .next (((u.rxCommon n f).updPort n fun x =>
        x.setBack f.hdr s.now (1000 * s.fld (Reg.net n 0x40) 16 8)).countPort n 0x73 1)) ∧
      (ty = 0x13 → ∀ (m : TxMsg) (id : Nat) (c : Cmd), ((u.rxCommon n f).port n).msgs.find? (fun m =>
          m.src == f.hdr.srcEp && m.dst == f.hdr.dstEp && m.seq == some f.hdr.msgSeq && m.type != 5) = some m →
        m.cmd = some id → (u.rxCommon n f).cmd? id = some c →
        exec i s = .next (((u.rxCommon n f).updPort n fun x => { x with msgs := x.msgs.filter (fun m =>
          !(m.src == f.hdr.srcEp && m.dst == f.hdr.dstEp && m.seq == some f.hdr.msgSeq && m.type != 5)) }).complete c 0x0704
            (f.hdr.key.toNat % 256))))) ∧
  (∀ (s : State) (n : Nat) (i : Instr),
    (s.fld Reg.stopStatus 0 3 = 2 → (∀ j ∈ s.fe.stopHeld, heldPort j ≠ some n) → s.stopFrame n i = s.holdInbound i) ∧
    (s.fld Reg.stopStatus 0 3 ≠ 2 ∨ (∃ j ∈ s.fe.stopHeld, heldPort j = some n) → s.stopFrame n i = s.bumpNet n 0x64 1)) ∧
  (∀ (s : State) (n : Nat) (f : Frame),
    (s.portOwner n = none → s.rxSeq n f = (s.bumpNet n 0x50 1).updPort n fun x =>
      { x with freed := x.freed + (if f.hdr.type ≤ 3 then 1 else 0) }) ∧
    (∀ p, s.portOwner n = some p →
      (f.hdr.dstEpoch.toNat ≠ s.epoch p ∨ f.hdr.srcEpoch.toNat ≠ s.peerEpoch n →
        s.rxSeq n f = (s.bumpNet n 0x48 1).countPort n 0x76 1) ∧
      (f.hdr.dstEpoch.toNat = s.epoch p → f.hdr.srcEpoch.toNat = s.peerEpoch n → f.hdr.type ≠ 4 →
        f.hdr.jobId.toNat = (s.jobOf p).1 → (jobOlder f.hdr.jobEpoch.toNat (s.jobOf p).2 = true ∨
          (s.fld (Reg.abort p) 1 1 = 1 ∧ f.hdr.jobEpoch.toNat = (s.jobOf p).2)) →
        s.rxSeq n f = (s.bumpNet n 0x4C 1).countPort n 0x76 1) ∧
      (s.rxDrop n f.hdr = none →
        let u := s.rxCommon n f
        let v := (u.sendNaks n f.hdr.psn).noteRx n f.hdr
        ((u.port n).seen f.hdr.psn = true → s.rxSeq n f = u.sendCtl n { type := 0x10 }) ∧
        ((u.port n).seen f.hdr.psn = false → f.hdr.type = 4 → s.rxSeq n f = v.takeAbort n p f.hdr) ∧
        ((u.port n).seen f.hdr.psn = false → f.hdr.type ≠ 4 → v.mayTake n f.hdr = true →
          s.rxSeq n f = (v.takeFrame n p f).drainHeld n p ((v.port n).held.length + 1)) ∧
        ((u.port n).seen f.hdr.psn = false → f.hdr.type ≠ 4 → v.mayTake n f.hdr = false →
          s.rxSeq n f = v.updPort n fun x => { x with held := x.held ++ [f] })))) ∧
  (∀ (s : State) (p : Nat) (h : Hdr),
    ((h.jobId.toNat, h.jobEpoch.toNat) ≠ s.jobOf p → s.verdict p h = .rnr) ∧
    ((h.jobId.toNat, h.jobEpoch.toNat) = s.jobOf p →
      (h.type = 1 → (s.part p).regions.find? (fun r => r.kind == 1 && r.ep == h.dstEp && r.key == h.key.toNat) = none →
        s.verdict p h = .refuse 1) ∧
      (h.type = 1 → ∀ r, (s.part p).regions.find? (fun r => r.kind == 1 && r.ep == h.dstEp && r.key == h.key.toNat) = some r →
        (r.bytes < h.offset.toNat + h.msgBytes → s.verdict p h = .refuse 2) ∧
        (h.offset.toNat + h.msgBytes ≤ r.bytes → s.sramWaits p r.addr = false → s.verdict p h = .accept
          { addr := r.addr + h.offset.toNat, asid := r.asid, user := r.user, ep := r.ep, key := r.key, kind := 1 })) ∧
      (h.type = 2 → (s.part p).buffers.find? (fun b => b.ep == h.dstEp && !s.filling b.cmd) = none → s.verdict p h = .rnr) ∧
      (h.type = 2 → ∀ b, (s.part p).buffers.find? (fun b => b.ep == h.dstEp && !s.filling b.cmd) = some b →
        b.bytes < h.msgBytes → s.verdict p h = .refuse 4) ∧
      (h.type = 3 → (∀ r ∈ (s.part p).regions, r.kind = 2 → r.ep = h.dstEp → h.key.toNat < r.key ∨ r.key + r.bytes ≤ h.key.toNat) →
        s.verdict p h = .refuse 3))) ∧
  (∀ (s : State) (n p : Nat) (f : Frame) (m : RxMsg), m.got.contains f.hdr.seg = false →
    (f.hdr.type = 3 → m.buf = none → ∀ k, s.fenceKey p f.hdr.key.toNat = some k → s.fenceFault k = none →
      (s.placeSeg n p f m).fence k = s.fence k + f.hdr.offset ∧ ∀ j, j ≠ k → (s.placeSeg n p f m).fence j = s.fence j) ∧
    (f.hdr.type ≠ 3 → ∀ s1 : State,
      s.writeLoc (s.rxAcc p m) ((rawLoc m.addr).plus (8192 * f.hdr.seg)) f.payload = (s1, none) →
      let u := (s1.setPair n f.hdr
        { s1.rxPair n f.hdr with rnr := false, msg := some { m with got := f.hdr.seg :: m.got } }).countPort n 0x71 1
      (m.got.length + 1 ≠ segsOf f.hdr.msgBytes → s.placeSeg n p f m = u.markDone n f.hdr) ∧
      (m.got.length + 1 = segsOf f.hdr.msgBytes →
        s.placeSeg n p f m = (u.msgPlaced n p f.hdr { m with got := f.hdr.seg :: m.got }).markDone n f.hdr))) ∧
  (∀ (s : State) (n : Nat) (h : Hdr), h.psn = (s.port n).rxAck → (s.port n).rxDone = [] →
    ((s.markDone n h).port n).rxAck = h.psn + 1 ∧ ((s.markDone n h).port n).rxDone = []) ∧
  (∀ (s : State) (n : Nat) (h : Hdr),
    ((s.refuseMsg n h 1).rxPair n h) = { next := (s.rxPair n h).next + 1,
                                         noted := (s.rxPair n h).noted.filter (fun e => e.2 != (s.rxPair n h).next) } ∧
    ((s.rnrMsg n h).rxPair n h) = { s.rxPair n h with rnr := true, msg := none }) ∧
  (∀ (s : State) (n : Nat) (h : Hdr), n < 4 →
    let isIn := fun (f : TxFrame) => h.ackValid && f.frame.hdr.psn != h.ackPsn && seqLe f.frame.hdr.psn h.ackPsn
    ((s.takeAck n h).port n).unacked = (s.port n).unacked.filter (fun f => !isIn f) ∧
    ((s.takeAck n h).port n).credits = min 510 ((s.port n).credits + h.credits) ∧
    (h.ece = false → (s.takeAck n h).cwnd n =
      min 512 (s.cwnd n + ((s.port n).widen + ((s.port n).unacked.filter isIn).length) / 16)) ∧
    (h.ece = true → (s.port n).halvedAt = none → (s.takeAck n h).cwnd n = max 16 (s.cwnd n / 2))) ∧
  (∀ (x : Port) (h : Hdr) (now wait : Nat) (m : TxMsg), m ∈ x.msgs → m.src = h.srcEp → m.dst = h.dstEp → m.seq = some h.msgSeq →
    m.type ≠ 5 → { m with sent := 0, rnrUntil := some (now + wait), rnrSince := some (m.rnrSince.getD now) } ∈
      (x.setBack h now wait).msgs)

/-- A link trains, keys on both nonces with its window and PSN series restarted, learns its peer from a HELLO, and drops on
silence, loss of the PHY or the reference, or RETRAIN; a peer that is another gives up every message; after 10 ms down the
messages end. Each timer row acts once its interval has passed. The port sends an ABORT ahead of any segment, and otherwise
the next segment in turn, as a sequenced frame that takes a credit and joins the unacknowledged ones; a timeout resends with
twice the wait, or gives up after the configured resends. (spec/13_network_ports.md, spec/18_package_pins_power.md,
spec/15_clocks_resets_global_stop.md.) -/
def Obligations.LinksTimersAndSending : Prop :=
  (∀ (s : State) (n : Nat) (fast : Bool) (nonce : BitVec 256), n < 4 → s.active = true → s.ethLock n = true →
    s.fld (Reg.net n 0) 0 3 ≤ 1 → s.fld (Reg.net n 4) (if fast then 0 else 1) 1 = 1 →
    ∃ t, exec (.linkUp n fast nonce) s = .next t ∧ t.fld (Reg.net n 0) 0 3 = 2 ∧ t.out = s.out ++ [.keyx n nonce (keyxTag nonce n)] ∧
      t.port n = { s.port n with
        phyUp := true, fast, nonce, keyings := 0, assoc := 0, pn := 0, lastRx := s.now, lastTx := s.now } ∧
      t = { s with regs := t.regs, out := t.out, ports := t.ports }) ∧
  (∀ (s : State) (n peer : Nat) (nonce : BitVec 256) (tag : BitVec 128), n < 4 → peer < 4 → s.alive = true →
    s.fld (Reg.net n 0) 0 3 = 2 →
    (tag ≠ keyxTag nonce peer →
      ∃ t, exec (.rxKeyx n nonce peer tag) s = .next t ∧ t.fld (Reg.net n 0) 0 3 = 5 ∧ s.onlyRegs t [Reg.net n 0]) ∧
    (tag = keyxTag nonce peer → ∃ t, exec (.rxKeyx n nonce peer tag) s = .next t ∧
      t.fld (Reg.net n 0) 0 3 = (if (s.port n).fast then 4 else 3) ∧ t.cwnd n = 512 ∧ (t.port n).psn = 0 ∧
      (t.port n).unacked = [] ∧ (t.port n).rxAck = 0 ∧ (t.port n).credits = 510 ∧ (t.port n).peerNonce = nonce ∧
      (t.port n).downAt = none ∧ (t.port n).sentHello = true ∧
      t.out = s.out ++ [.hello n (s.portOwner n).isSome (BitVec.ofNat 8 ((s.portOwner n).elim 0 s.epoch)) 510 s.deviceTag] ∧
      t = { s with regs := t.regs, out := t.out, ports := t.ports })) ∧
  (∀ (s : State) (n peer credits : Nat) (owned : Bool) (epoch : BitVec 8) (tag : BitVec 128), n < 4 → peer < 4 → s.alive = true →
    s.linkUp n = true →
    (s.stopped = true → exec (.rxHello n owned epoch peer credits tag) s =
      .next (s.stopFrame n (.rxHello n owned epoch peer credits tag))) ∧
    (s.stopped = false →
    ∃ t, exec (.rxHello n owned epoch peer credits tag) s = .next t ∧ t.peerEpoch n = epoch.toNat ∧
      t.fld (Reg.net n 0) 8 1 = b2n owned ∧ (t.port n).gotHello = true ∧ (t.port n).lastRx = s.now ∧
      (∀ i, i < 4 → t.reg (Reg.net n (0x80 + 4 * i)) = BitVec.ofNat 32 (tag.toNat / 2 ^ (32 * i))) ∧
      (t.peerReady n = true ↔ (s.port n).sentHello = true ∧ s.fld (Reg.net n 0) 4 1 = 1 ∧ owned = true) ∧
      (s.peerEpoch n ≠ epoch.toNat ∨ (s.fld (Reg.net n 0) 8 1 = 1 ∧ owned = false) →
        (t.port n).msgs = [] ∧ (t.port n).pairs = []))) ∧
  (∀ (s : State) (n : Nat), n < 4 → s.alive = true →
    (s.linkUp n = true → s.stopped = false →
      exec (.rxKeepalive n) s = .next (s.updPort n fun x => { x with lastRx := s.now })) ∧
    (∀ un : Bool, exec (.otherFrameDrop n un) s =
      .next (s.bump (Reg.net n (if un = true ∧ s.stopped = false then 0x54 else 0x64)) 0 32 1))) ∧
  (∀ (s : State) (n t : Nat), n < 4 → s.alive = true →
    (∃ u, exec (.linkDown n false t) s = .next u ∧ u.fld (Reg.net n 0) 0 3 = 1 ∧ u.peerReady n = false ∧
      u.port n = { s.port n with
        downAt := if s.linkUp n then some (s.atTime t).now else (s.port n).downAt, sentHello := false, gotHello := false,
        phyUp := false } ∧
      u = { s.atTime t with regs := u.regs, ports := u.ports }) ∧
    (∃ u, exec (.linkDown n true t) s = .next u ∧ u.fld (Reg.net n 0) 0 3 = 0 ∧ u.ethLock n = false ∧ u.peerReady n = false) ∧
    (s.ethLock n = false → ∃ u, exec (.ethReferenceReturn n) s = .next u ∧ u.ethLock n = true ∧ u.fld (Reg.net n 0) 0 3 = 1)) ∧
  (∀ (s : State) (n t : Nat), n < 4 → s.active = true →
    (s.linkUp n = true → (s.port n).lastRx + 1000000 ≤ (s.atTime t).now →
      ∃ u, exec (.peerSilenceTimeout n t) s = .next u ∧ u.fld (Reg.net n 0) 0 3 = 0 ∧ u.peerReady n = false ∧
        (u.port n).downAt = some (s.atTime t).now) ∧
    (∀ d, (s.port n).downAt = some d → s.linkUp n = false → d + 10000000 ≤ (s.atTime t).now →
      exec (.linkGiveUp n t) s = .next (((s.atTime t).failPort n 0x0702).updPort n fun x => { x with downAt := none })) ∧
    (s.linkUp n = true → ∃ u, exec (.rekey n) s = .next u ∧
      u.port n = { s.port n with
        keyings := (s.port n).keyings + 1, assoc := ((s.port n).assoc + 1) % 4, pn := 0, sak := (u.port n).sak } ∧
      u = { s with ports := u.ports }) ∧
    (exec (.rnrRetry n t) s = .next ((s.atTime t).updPort n fun x => { x with
      msgs := x.msgs.map (fun m => if m.rnrUntil.any (· ≤ (s.atTime t).now) then { m with rnrUntil := none } else m) })) ∧
    (s.linkUp n = true → ∀ a, (s.port n).ackAt = some a → a + 1000 ≤ (s.atTime t).now →
      exec (.ackTimer n t) s = .next ((s.atTime t).sendCtl n { type := 0x10 })) ∧
    (s.linkUp n = true → (s.port n).lastTx + 100000 ≤ (s.atTime t).now →
      exec (.keepaliveTimer n t) s = .next ((s.atTime t).sendCtl n { type := 0x22 })) ∧
    (s.linkUp n = true → (s.port n).lastHello + 1000000 ≤ (s.atTime t).now →
      ∃ u, exec (.helloTimer n t) s = .next u ∧ u.fld (Reg.net n 0x44) 0 16 = min 65535 ((s.port n).acked / 1000) ∧
        (u.port n).acked = 0 ∧ (u.port n).lastHello = (s.atTime t).now ∧
        u.out = s.out ++ [.hello n (s.portOwner n).isSome (BitVec.ofNat 8 ((s.portOwner n).elim 0 s.epoch)) 510 s.deviceTag])) ∧
  (∀ (s : State) (n : Nat) (h : Hdr),
    (s.sendCtl n h).out = s.out ++ [.frame n { hdr := s.fillHdr n h }] ∧
    (s.fillHdr n h).type = h.type ∧ (s.fillHdr n h).ackPsn = (s.port n).rxAck ∧ (s.fillHdr n h).ackValid = true ∧
    ((s.sendCtl n h).port n).ackAt = none ∧ ((s.sendCtl n h).port n).lastTx = s.now ∧
    s.sendCtl n h = { s with out := (s.sendCtl n h).out, ports := (s.sendCtl n h).ports }) ∧
  (∀ (s : State) (n : Nat) (val : BitVec 32), n < 4 → Reachable s 0 (Reg.net n 4) → bitB val.toNat 10 = true →
    s.ethLock n = true → ∃ u, exec (.retrain 0 n val) s = .next u ∧ u.reg (Reg.net n 4) = val &&& 0xFFFF03FF ∧
      u.fld (Reg.net n 0) 0 3 = 1 ∧ u.peerReady n = false) ∧
  (∀ (s : State) (n p : Nat), n < 4 → s.portOwner n = some p → s.active = true → s.linkUp n = true → s.peerReady n = true →
    (s.port n).unacked.length < min 512 (s.cwnd n) →
    (∀ job rest, (s.port n).aborts = job :: rest → (s.port n).abortOut = false →
      exec (.segmentTransmit n) s = .next (s.sendAbort n job)) ∧
    (∀ m, (s.port n).aborts = [] → (s.port n).nextMsg = some m → s.configured p = true →
      exec (.segmentTransmit n) s = .next (s.sendSeg n p m) ∧
      (∀ (id : Nat) (c : Cmd) (data : List Byte), m.cmd = some id → s.cmd? id = some c → m.type ≠ 5 →
        (m.noted = true ∨ bitB (s.part p).trace.types 1 = false) →
        s.readLoc { s.accOf c 31 false with epoch := s.epoch p } ((rawLoc c.sendArgs.loc).plus (8192 * m.sent))
          (min 8192 (c.sendArgs.bytes - 8192 * m.sent)) = .ok data →
        ∃ (u : State) (h : Hdr), s.sendSeg n p m = u.countPort n 0x70 1 ∧ u.out = s.out ++ [.frame n { hdr := h, payload := data }] ∧
          h.type = m.type ∧ h.psn = (s.port n).psn ∧ h.srcEp = m.src ∧ h.dstEp = m.dst ∧ h.seg = m.sent ∧
          h.msgBytes = c.sendArgs.bytes ∧ h.last = (m.sent + 1 == m.total) ∧
          (u.port n).psn = (s.port n).psn + 1 ∧ (u.port n).credits = (s.port n).credits - 1 ∧
          (u.port n).unacked.length = (s.port n).unacked.length + 1 ∧ u = { s with out := u.out, ports := u.ports }))) ∧
  (∀ (s : State) (n t : Nat) (psn : BitVec 32) (y : TxFrame), n < 4 → s.active = true → s.linkUp n = true →
    (s.portOwner n).isSome = true → (s.port n).unacked.find? (fun y => y.frame.hdr.psn == psn) = some y →
    y.sentAt + y.rto ≤ (s.atTime t).now →
    (y.resends < s.fld (Reg.net n 0x40) 8 4 →
      exec (.retransmitTimeout n psn t) s = .next ((s.atTime t).resend n y (2 * y.rto))) ∧
    (s.fld (Reg.net n 0x40) 8 4 ≤ y.resends → exec (.retransmitTimeout n psn t) s = .next ((s.atTime t).exhaust n))) ∧
  (∀ (s : State) (n : Nat), ((s.exhaust n).port n).psn = 0 ∧ ((s.exhaust n).port n).unacked = [] ∧
    ((s.exhaust n).port n).credits = 510)

/-- A CONFIGURE whose first failed check is none gives the partition its slices, ports and stacks and begins the scrubs that
are due, and once they are done the partition is active, empty and its scrubbed stacks read zero; one with a failed check
ends with its status and changes nothing. A release counts the epoch up, drains, clears everything the partition held and,
after the scrub, leaves it absent with DETAIL the commands the drain ended. A context switch holds the partition, saves or
restores the SRAM regions of its image, and leaves the partition active; a bad word in what it reads ends it with 0x0310; a
saved region restored reads as it did.
RESET_COMPUTE asks for a compute reset, which empties the partition's units and dispensers and aborts its job.
(spec/11_steps_partitions_tenancy.md, spec/07_memory_system.md, spec/12_integrity_and_recovery.md, spec/10_command_set.md.) -/
def Obligations.PartitionsAreMadeHeldAndReleased : Prop :=
  (∀ (s : State) (id : Nat) (rates : BitVec 16) (c : Cmd), Runs s id 0x82 c → c.f 49 0 8 = 0 → c.phase = .started → c.part < 8 →
    let x := c.confArgs
    let u := x.slices.foldl (fun s n => s.train rates n) s
    (s.confCheck c ≠ 0 → exec (.configure id rates) s = .next (s.endRun c (s.confCheck c) 0 none)) ∧
    (s.confCheck c = 0 → x.inService.any u.offline = true → exec (.configure id rates) s = .next (u.endRun c 0x0311 0 none)) ∧
    (s.confCheck c = 0 → x.inService.any u.offline = false →
      ∃ t : State, exec (.configure id rates) s = .next (t.outerRuns id) ∧ t.cmd? id = some { c with phase := .running } ∧
        t.pstate c.part = 1 ∧ t.firstSlice c.part = x.first ∧ t.nSlices c.part = 2 ^ x.log2 ∧
        t.fld (Reg.part c.part) 9 4 = x.ports ∧ t.epoch c.part = s.epoch c.part ∧
        (∀ st, st ∈ t.stacksOf c.part ↔ st ∈ x.inService) ∧
        (∀ st ∈ x.inService, t.scrubBusy st = s.mustScrub c.part st) ∧
        t = { s with regs := t.regs, fe := { s.fe with cmds := t.fe.cmds } })) ∧
  (∀ (s : State) (id : Nat) (c : Cmd), Runs s id 0x82 c → c.f 49 0 8 = 0 → c.phase = .running → c.part < 8 → s.pstate c.part = 1 →
    let x := c.confArgs
    let due := x.inService.filter s.scrubBusy
    x.first + 2 ^ x.log2 ≤ 8 →
    ∃ t : State, exec (.configureDone id) s = .next (t.endRun c 0 (due.length + 256 * x.inService.length) none) ∧
      t.pstate c.part = 2 ∧ t.epoch c.part = s.epoch c.part ∧ t.fld (Reg.qbase c.part) 0 11 = x.qb ∧
      t.fld (Reg.qbase c.part) 16 12 = x.qn ∧ t.fld (Reg.cqbase c.part) 0 7 = x.cb ∧ t.fld (Reg.cqbase c.part) 16 8 = x.cn ∧
      t.part c.part =
        { ptPool := x.pool, ptTables := x.tabs, kem := s.free + 1, configs := (s.part c.part).configs + 1 } ∧
      (∀ p, p ≠ c.part → t.part p = s.part p) ∧
      (∀ st ∈ due, t.fld (Reg.memStatus st) 8 1 = 1 ∧ t.fld (Reg.memStatus st) 4 3 = c.part ∧ t.scrubBusy st = false ∧
        ∀ a, stackBase st ≤ a → a < stackBase st + usable → t.mem.hbm.get Config.blankByte a = Config.blankByte a)) ∧
  (∀ (s : State) (id : Nat) (c : Cmd), Runs s id 0x83 c → c.phase = .started → c.part < 8 →
    (s.pstate c.part = 0 → exec (.partitionRelease id) s = .next (s.endRun c 0x0913 0 none)) ∧
    (s.pstate c.part ≠ 0 → s.configured c.part = false → exec (.partitionRelease id) s = .next (s.endRun c 0x0902 0 none)) ∧
    (s.configured c.part = true →
      ∃ t : State, exec (.partitionRelease id) s = .next (t.outerRuns id) ∧ t.cmd? id = some { c with phase := .running } ∧
        t.epoch c.part = (s.epoch c.part + 1) % 256 ∧ t.pstate c.part = 4 ∧
        (s.fld Reg.bar4 0 3 = c.part → t.fld Reg.bar4 3 1 = 0) ∧
        t.part c.part = { s.part c.part with
          drainAt := some s.now, drained := 0, releaseBy := some c.id, regions := [], buffers := [], hold := none } ∧
        (∀ p, p ≠ c.part → t.part p = s.part p) ∧ t.mem = s.mem ∧ t.cores = s.cores)) ∧
  (∀ (s : State) (p t d : Nat), p < 8 → s.active = true → s.pstate p = 4 → (s.part p).drainAt = some d →
    s.firstSlice p + s.nSlices p ≤ 8 →
    (d + 50000 ≤ (s.atTime t).now → exec (.drainOverrun p t) s =
      .next (((((s.atTime t).endDoomed p).resetUnits p).logDevice
        { kind := 0x30, severity := 4, part := some p, extra := s.epoch p }).jobAbort p none)) ∧
    (∃ u, exec (.drainEnd p t) s = .next u ∧ u.pstate p = 5 ∧ u.epoch p = s.epoch p ∧ u.fld (Reg.part p) 9 4 = 0 ∧
      u.part p = { drained := (s.part p).drained + (s.doomed p).length, releaseBy := (s.part p).releaseBy,
                   configs := (s.part p).configs } ∧
      u.fld (Reg.partDrain p) 16 16 = min 0xFFFF ((s.part p).drained + (s.doomed p).length) ∧
      (∀ q, (u.sq q).enabled = true → (u.sq q).fn ≠ p + 1) ∧ (∀ q, (u.cq q).enabled = true → (u.cq q).fn ≠ p + 1) ∧
      (∀ sl ∈ s.slicesOf p, ∀ k a, k < 3 → a < 2 ^ 24 →
        u.mem.sram.get Config.blankByte (sramKey (3 * sl + k) a) = Config.blankByte (sramKey (3 * sl + k) a)))) ∧
  (∀ (s : State) (p t id : Nat) (c : Cmd), p < 8 → s.active = true → s.pstate p = 5 → (s.part p).releaseBy = some id →
    s.cmd? id = some c → s.firstSlice p + s.nSlices p ≤ 8 →
    ∃ u : State, exec (.releaseScrubDone p t) s = .next (u.complete c 0 (min (s.part p).drained 0xFFFFFF)) ∧ u.pstate p = 0 ∧
      u.epoch p = s.epoch p ∧ u.stacksOf p = [] ∧ u.part p = { configs := (s.part p).configs } ∧
      (∀ sl ∈ s.slicesOf p, s.scrubBusy sl = true → u.fld (Reg.memStatus sl) 8 1 = 1 ∧
        ∀ a, stackBase sl ≤ a → a < stackBase sl + usable → u.mem.hbm.get Config.blankByte a = Config.blankByte a)) ∧
  (∀ (s : State) (id : Nat) (i : Instr) (c : Cmd),
    ((Runs s id 0x8D c ∧ i = .contextSave id) ∨ (Runs s id 0x8E c ∧ i = .contextRestore id)) → c.phase = .started →
    (c.f 50 0 2 = 3 → exec i s = .next (s.endRun c 0x0104 0 none)) ∧
    (c.f 50 0 2 ≠ 3 → ∃ t : State, exec i s = .next (t.outerRuns id) ∧ t.cmd? id = some { c with phase := .running } ∧
      t.part c.part = { s.part c.part with hold := some c.id } ∧
      t = { s with parts := t.parts, fe := { s.fe with cmds := t.fe.cmds } })) ∧
  (∀ (s : State) (p t : Nat) (c : Cmd), p < 8 → s.holder p = some c → s.firstSlice p + s.nSlices p ≤ 8 →
    (s.pstate p = 2 → s.fld (Reg.part p) 3 1 = 0 → (∀ d ∈ s.fe.cmds, d.id = c.id ∨ d.part ≠ p) → s.inTime c = true →
      ((s.slicesOf p).any s.offline = true → exec (.contextHoldReached p) s = .next (s.complete c 0x0311 0)) ∧
      ((s.slicesOf p).any s.offline = false → c.op = 0x8D → ∀ s1 : State,
        s.sweepCores p (fun _ => { write := true, keep := false }) (s.coresOf p) = (s1, none) →
        let regs := c.f 51 0 5
        let s2 := (s1.emptyStores p).setFld (Reg.partSwitch p) (c.f 49 0 1) 1 0
        let s3 := (s.slicesOf p).foldl (fun s sl => s.putImage p sl (c.f 49 0 1) regs) (s2.fixAreas p regs)
        (∀ k, s2.badSram p regs = some k → exec (.contextHoldReached p) s =
          .next ((s2.noteErr { status := 0x0310, part := p, sram := some k } c.queue c.seq.toNat).complete c 0x0310 0)) ∧
        (s2.badSram p regs = none → ∃ u, exec (.contextHoldReached p) s = .next u ∧ u.fld (Reg.part p) 0 3 = 3 ∧
          (u.part p).slots.get (fun _ => {}) (c.f 49 0 1) = s3.cocoon p regs)) ∧
      ((s.slicesOf p).any s.offline = false → c.op = 0x8E →
        let i := (s.part p).slots.get (fun _ => {}) (c.f 49 0 1)
        (s.fld (Reg.partSwitch p) (c.f 49 0 1) 1 = 0 → exec (.contextHoldReached p) s = .next (s.complete c 0x0A04 0)) ∧
        (∀ d, s.fld (Reg.partSwitch p) (c.f 49 0 1) 1 = 1 → s.badImage p (c.f 49 0 1) 64 = some d →
          exec (.contextHoldReached p) s =
            .next ((s.noteErr { status := 0x0310, part := p, dpa := some d } c.queue c.seq.toNat).complete c 0x0310 0)) ∧
        (s.fld (Reg.partSwitch p) (c.f 49 0 1) 1 = 1 → s.badImage p (c.f 49 0 1) 64 = none →
          i.epoch ≠ s.epoch p ∨ i.shape ≠ s.shape p → exec (.contextHoldReached p) s = .next (s.complete c 0x0A04 0)) ∧
        (s.fld (Reg.partSwitch p) (c.f 49 0 1) 1 = 1 → s.badImage p (c.f 49 0 1) 64 = none → i.epoch = s.epoch p →
          i.shape = s.shape p →
          ∃ u, exec (.contextHoldReached p) s = .next u ∧ u.fld (Reg.part p) 0 3 = 3 ∧ s.onlyRegs u [Reg.part p]))) ∧
    (s.pstate p = 2 → c.infinite = false → (c.deadline < (s.atTime t).now ∨ (c.deadline ≤ (s.atTime t).now ∧ s.quiet p c.id = false)) →
      exec (.contextHoldTimeout p t) s = .next ((s.atTime t).retire c 0x0401 0 false (some c.deadline))) ∧
    (s.pstate p = 3 → c.op = 0x8D → ∀ ok, ∃ u : State, exec (.contextSwitchDone p ok t) s = .next (u.complete c 0 0) ∧
      u.pstate p = 2 ∧ u.fld (Reg.partSwitch p) (c.f 49 0 1) 1 = 1 ∧ (s.atTime t).onlyRegs u [Reg.part p, Reg.partSwitch p]) ∧
    (s.pstate p = 3 → c.op = 0x8E →
      let i := (s.part p).slots.get (fun _ => {}) (c.f 49 0 1)
      (∀ d, s.badImage p (c.f 49 0 1) (imageBytes i.regions) = some d → ∀ ok, ∃ v : State,
        exec (.contextSwitchDone p ok t) s = .next (v.complete c 0x0310 0) ∧ v.pstate p = 2) ∧
      (s.badImage p (c.f 49 0 1) (imageBytes i.regions) = none →
        (∃ v : State, exec (.contextSwitchDone p true t) s = .next ((v.thaw p i).complete c 0 0) ∧
          v.pstate p = 2 ∧ (s.atTime t).onlyRegs v [Reg.part p, Reg.partSwitch p]) ∧
        (∃ v : State, exec (.contextSwitchDone p false t) s = .next (v.complete c 0x0A04 0) ∧ v.pstate p = 2 ∧
          ∀ k ∈ s.coresOf p, ∀ a, a < 2 ^ 24 →
            v.mem.sram.get Config.blankByte (sramKey k a) = Config.blankByte (sramKey k a))))) ∧
  (∀ (s v : State) (p r k a : Nat), s.canonical = true → k ∈ s.coresOf p → v.coresOf p = s.coresOf p →
    (∃ m ∈ regionAreas r, m.1 ≤ a ∧ a < m.1 + m.2) →
    (v.thaw p (s.cocoon p r)).mem.sram.get Config.blankByte (sramKey k a) = s.mem.sram.get Config.blankByte (sramKey k a)) ∧
  (∀ (s : State) (id : Nat) (c : Cmd), Runs s id 0x8F c → c.phase = .started →
    ∃ t : State, exec (.resetCompute id) s = .next (t.outerRuns id) ∧ t.cmd? id = some { c with phase := .running } ∧
      t.part c.part = { s.part c.part with resetDue := true } ∧ (∀ p, p ≠ c.part → t.part p = s.part p) ∧
      t = { s with parts := t.parts, fe := { s.fe with cmds := t.fe.cmds } }) ∧
  (∀ (s : State) (p : Nat) (kvDone : Bool), p < 8 → s.active = true → s.configured p = true → (s.part p).resetDue = true →
    s.firstSlice p + s.nSlices p ≤ 8 →
      ∃ t, exec (.computeReset p kvDone) s = .next t ∧ (t.part p).resetDue = false ∧ (t.part p).fab = [] ∧ (t.part p).att = [] ∧
      (t.part p).buffers = [] ∧ (∀ k ∈ s.coresOf p, (t.core k).run = none ∧ (t.core k).tiles = [] ∧ (t.core k).v = []) ∧
      (s.fld (Reg.abort p) 0 1 = 1 → t.fld (Reg.abort p) 1 1 = 1))

/-- COUNTER_CONFIG applies every selected word in every named core and clears those counters if asked, or changes nothing;
TRACE_CONFIG stops the current trace and starts one of its mode with the ring's slots and an even pre-trigger share, or
leaves tracing off; a record goes to the slot of its mode, or is dropped and counted; FIRE triggers a trace whose trigger it
is, and a later trigger is counted; the header and NULL timers and the observation window act in their time; TENSOR_WATCH
arms a free slot; a watch whose producer waits for it frees its slot, and the last one releases the producer with the status
it had. (spec/16_counters_trace_tensor_watch.md, spec/10_command_set.md.) -/
def Obligations.CountersTracesAndWatches : Prop :=
  (∀ (s : State) (id : Nat) (c : Cmd) (b : List Byte), Runs s id 0x89 c → c.block = some b →
    let cores := s.coreMask c.part (num b 0 4)
    let sel := ones (num b 4 2) 16
    (num b 6 1 / 2 ≠ 0 ∨ num b 7 57 ≠ 0 → exec (.counterConfig id) s = .next (s.endRun c 0x0103 0 none)) ∧
    (num b 6 1 / 2 = 0 → num b 7 57 = 0 →
      ((∃ n ∈ cores, (s.coresOf c.part).contains n = false) → exec (.counterConfig id) s = .next (s.endRun c 0x0911 0 none)) ∧
      ((∀ n ∈ cores, (s.coresOf c.part).contains n = true) →
        ((∃ k ∈ sel, cfgOk k (num b (64 + 4 * k) 4) = false) → exec (.counterConfig id) s = .next (s.endRun c 0x0104 0 none)) ∧
        ((∀ k ∈ sel, cfgOk k (num b (64 + 4 * k) 4) = true) → (∀ n ∈ cores, n < 24) →
          ∃ t : State, exec (.counterConfig id) s = .next (t.endRun c 0 0 none) ∧
            t = { s with regs := t.regs, cores := t.cores } ∧ (∀ n, t.core n = { s.core n with caps := (t.core n).caps }) ∧
            (∀ n ∈ cores, ∀ k ∈ sel,
              t.reg (Reg.ctrCfg n k) = BitVec.ofNat 32 (num b (64 + 4 * k) 4 &&& 0xFF0FFF) ∧
              (num b 6 1 = 1 → t.reg (Reg.ctrLo n k) = 0 ∧ t.reg (Reg.ctrHi n k) = 0) ∧
              (num b 6 1 = 0 → t.reg (Reg.ctrLo n k) = s.reg (Reg.ctrLo n k) ∧ t.reg (Reg.ctrHi n k) = s.reg (Reg.ctrHi n k))) ∧
            (∀ n k, n < 24 → k < 16 → n ∉ cores ∨ k ∉ sel → t.reg (Reg.ctrCfg n k) = s.reg (Reg.ctrCfg n k) ∧
              t.reg (Reg.ctrLo n k) = s.reg (Reg.ctrLo n k) ∧ t.reg (Reg.ctrHi n k) = s.reg (Reg.ctrHi n k)))))) ∧
  (∀ (s : State) (id : Nat) (c : Cmd) (b : List Byte), Runs s id 0x8A c → c.block = some b → c.part < 8 →
    traceReservedOk b = true → traceFieldsOk b = true →
    let u := s.outerBegin c
    (num b 12 1 = 0 → ∃ (t : State) (d : Cmd), exec (.traceConfig id) s = .next (t.endRun d 0 0 none) ∧ d.pkt = c.pkt ∧
      (t.part c.part).trace = {} ∧ t.traceState c.part = 0 ∧ t = { u with regs := t.regs, parts := t.parts }) ∧
    (num b 12 1 ≠ 0 → (num b 12 1 = 3 → num b 14 1 = 3 → (u.coresOf c.part).contains (num b 15 1) = true) →
      let r := u.ringFault (u.accOf c 31 false) (num b 0 8) (((traceOf b c.asid).slots * 32 + 4096) / 4096)
      (r = none → ∃ (t : State) (d : Cmd), exec (.traceConfig id) s = .next (t.endRun d 0 0 none) ∧ d.pkt = c.pkt ∧
        (t.part c.part).trace = traceOf b c.asid ∧ t.traceState c.part = num b 12 1 ∧
        t = { u with regs := t.regs, parts := t.parts }) ∧
      (∀ e, r = some e → ∃ (t : State) (d : Cmd),
        exec (.traceConfig id) s = .next ((t.noteErr e d.queue d.seq.toNat).endRun d e.status 0 none) ∧ d.pkt = c.pkt ∧
        t.traceState c.part = 0 ∧ t = { u with regs := t.regs, parts := t.parts }))) ∧
  (∀ (b : List Byte) (asid : Nat), (traceOf b asid).pre % 2 = 0 ∧
    (num b 13 1 < 16 → (traceOf b asid).pre ≤ (traceOf b asid).slots) ∧
    (num b 8 4 = 0 → (traceOf b asid).slots = 2097024)) ∧
  (∀ (s : State) (p : Nat) (r : List Byte), p < 8 →
    let tr := (s.part p).trace
    (s.traceState p = 1 → tr.staged.length < 128 →
      ((s.stage p r).part p).trace.staged = tr.staged ++ [(tr.index % tr.slots, r)] ∧
        ((s.stage p r).part p).trace.index = tr.index + 1) ∧
    (s.traceState p = 2 → tr.index < tr.slots → tr.staged.length < 128 →
      ((s.stage p r).part p).trace.staged = tr.staged ++ [(tr.index, r)] ∧
        (s.stage p r).traceState p = (if tr.index + 1 = tr.slots then 6 else 2)) ∧
    (s.traceState p = 3 → tr.staged.length < 128 →
      ((s.stage p r).part p).trace.staged = tr.staged ++ [(tr.index % tr.pre, r)]) ∧
    (s.traceState p = 4 → tr.staged.length < 128 →
      ((s.stage p r).part p).trace.staged = tr.staged ++ [(tr.slot, r)] ∧
        (s.stage p r).traceState p = (if tr.slot + 1 = tr.slots then 5 else 4)) ∧
    (s.traceState p = 1 ∨ s.traceState p = 3 ∨ s.traceState p = 4 → 128 ≤ tr.staged.length →
      ((s.stage p r).part p).trace.staged = tr.staged ∧
        (s.stage p r).fld (Reg.traceLost p) 0 32 = min (s.fld (Reg.traceLost p) 0 32 + 1) (2 ^ 32 - 1)) ∧
    (s.traceState p = 5 → s.stage p r = s)) ∧
  (∀ (s : State) (fn p : Nat) (val : BitVec 32), p < 8 → Reachable s fn (Reg.traceStatus p + 0x10) →
    (bitB val.toNat 0 = true → (s.part p).trace.trigger = 0 → exec (.fire fn p val) s = .next (s.traceFire p 0 0 0 0)) ∧
    (bitB val.toNat 0 = false ∨ (s.part p).trace.trigger ≠ 0 → exec (.fire fn p val) s = .next s)) ∧
  (∀ (s : State) (p cause b1 w4 w8 : Nat), p < 8 → s.traceState p = 4 ∨ s.traceState p = 5 →
    (s.traceFire p cause b1 w4 w8).fld (Reg.traceStatus p) 16 16 = min (s.fld (Reg.traceStatus p) 16 16 + 1) 65535 ∧
      s.onlyRegs (s.traceFire p cause b1 w4 w8) [Reg.traceStatus p]) ∧
  (∀ (s : State) (p t : Nat), p < 8 → s.active = true →
    (s.traceState p ≠ 0 → exec (.traceHeaderTimer p t) s = .next ((s.atTime t).traceHeader p)) ∧
    (s.tracing p = true → (s.atTime t).aloneSince p (s.atTime t).now = true → exec (.traceNullTimer p t) s =
      .next (((s.atTime t).stage p (traceBytes 0 0 0 0 0 0 0 (s.atTime t).now 0 0)).traceFlush p 64)) ∧
    (∃ u : State, exec (.observationWindow p t) s = .next (if u.configured p && u.traceState p != 0 then u.traceFlush p 64 else u) ∧
      u.part p = { s.part p with obsUsed := [], obsHeld := none } ∧
      u.fld (Reg.obsDefer p) 0 32 = (match (s.part p).obsHeld with
        | some since => min (s.fld (Reg.obsDefer p) 0 32 + ceilDiv ((s.atTime t).now - since) 1000) (2 ^ 32 - 1)
        | none => s.fld (Reg.obsDefer p) 0 32) ∧
      u = { s.atTime t with regs := u.regs, parts := u.parts })) ∧
  (∀ (s : State) (p : Nat), ∃ bs : List Byte, bs.length = 4096 ∧
    num bs 0 8 = (s.part p).trace.written % 2 ^ 64 ∧ num bs 16 8 = (s.part p).trace.trigIdx % 2 ^ 64 ∧
    num bs 24 1 = s.traceState p ∧
    s.traceHeader p = (s.writeDva (s.obsAcc p (s.part p).trace.asid) (s.part p).trace.ring bs).1) ∧
  (∀ (s : State) (id : Nat) (c : Cmd) (b : List Byte), Runs s id 0x8B c → c.block = some b → c.part < 8 →
    bits (num b 48 4) 25 7 = 0 → num b 53 11 = 0 →
    let w : Watch := { addr := num b 0 8, bytes := num b 8 8, step := num b 16 8, dump := num b 24 8, dumpN := num b 32 8,
                       record := num b 40 8, fence := bits (num b 48 4) 0 24, signal := bitB (num b 48 4) 24, asid := c.asid,
                       user := c.cls == 2 }
    let armed := (s.part c.part).watches.any (fun x => x.1 == num b 52 1)
    (watchFieldsOk b = false ∨ armed = true → exec (.tensorWatch id) s = .next (s.endRun c 0x0104 0 none)) ∧
    (watchFieldsOk b = true → armed = false → w.signal = true → s.fenceKey c.part w.fence = none →
      exec (.tensorWatch id) s = .next (s.endRun c 0x0402 0 none)) ∧
    (watchFieldsOk b = true → armed = false → w.signal = false ∨ s.fenceKey c.part w.fence ≠ none →
      ∃ t : State, exec (.tensorWatch id) s = .next (t.endRun c 0 0 none) ∧ s.onlyRegs { t with parts := s.parts } [Reg.watch c.part] ∧
        (t.part c.part).watches = (s.part c.part).watches ++ [(num b 52 1, w)] ∧ t.fld (Reg.watch c.part) (num b 52 1) 1 = 1)) ∧
  (∀ (s : State) (p slot : Nat) (c : Cmd) (w : Watch), p < 8 → slot < 8 →
    s.fe.cmds.find? (fun c => c.part == p && c.phase == .watched && c.watching.contains slot) = some c →
    (s.part p).watches.find? (fun w => w.1 == slot) = some (slot, w) → s.cmd? c.id = some c → s.active = true →
    c.epoch = s.epoch p →
    let u := s.watchAct c w slot
    let v := u.updCmd c.id fun c => { c with watching := c.watching.filter (· != slot) }
    (u.part p).watches = (s.part p).watches.filter (fun v => v.1 != slot) ∧
      u.fld (Reg.watch p) slot 1 = 0 ∧ u.fld (Reg.watch p) (8 + slot) 1 = 1 ∧
      (c.watching.filter (· != slot) = [] → exec (.watchRecord p slot) s =
        .next (v.complete { c with watching := [] } c.status c.detail)) ∧
      (c.watching.filter (· != slot) ≠ [] → exec (.watchRecord p slot) s = .next v))

/-- SNAPSHOT and a write of ARM arm a stop at a time rounded up to 4 ns and at least 2,000 ns ahead, or refuse it with its
cause; CANCEL disarms one that is more than 2,000 ns away, and sets CANCEL_LATE otherwise; the stop halts at its time,
records its spans, writes its dump unless one stands, is held or released by its ACTION, and RESUME or RESET in STATE 4
releases it 2,000 ns later; the release moves every deadline by the time stopped, applies the throttle level and asks for the
compute resets. (spec/15_clocks_resets_global_stop.md, spec/16_counters_trace_tensor_watch.md,
spec/12_integrity_and_recovery.md.) -/
def Obligations.StopsHaltAndRelease : Prop :=
  (∀ (s : State) (id : Nat) (c : Cmd), Runs s id 0x8C c →
    let t := alignUp ((if c.f 40 0 1 = 1 then c.dispAt else 0) + c.f 32 0 64) 4
    (t < c.dispAt + 2000 → exec (.snapshot id) s = .next (s.endRun c 0x0104 1 none)) ∧
    (c.dispAt + 2000 ≤ t → s.fld Reg.stopStatus 0 3 ≠ 0 → exec (.snapshot id) s = .next (s.endRun c 0x0104 2 none)) ∧
    (c.dispAt + 2000 ≤ t → s.fld Reg.stopStatus 0 3 = 0 → c.f 40 1 2 = 3 →
      exec (.snapshot id) s = .next (s.endRun c 0x0104 3 none)) ∧
    (c.dispAt + 2000 ≤ t → s.fld Reg.stopStatus 0 3 = 0 → c.f 40 1 2 ≠ 3 →
      ∃ u : State, exec (.snapshot id) s = .next (u.endRun c 0 0 none) ∧ u.fld Reg.stopStatus 0 3 = 1 ∧ u.fld Reg.stopStatus 5 1 = 1 ∧
        u.reg64 Reg.stopLo Reg.stopHi = t % 2 ^ 64 ∧ u.clk = { s.clk with stopT := t, stopAction := c.f 40 1 2 } ∧
        s.onlyRegs { u with clk := s.clk } [Reg.stopLo, Reg.stopHi, Reg.stopCtl, Reg.stopStatus])) ∧
  (∀ a : Nat, alignUp a 4 % 4 = 0 ∧ a ≤ alignUp a 4 ∧ alignUp a 4 < a + 4) ∧
  (∀ (s : State) (val : BitVec 32), Reachable s 0 Reg.stopCtl → bits val.toNat 0 4 = 1 →
    let t := alignUp (s.reg64 Reg.stopLo Reg.stopHi) 4
    (s.now + 2000 ≤ t → s.fld Reg.stopStatus 0 3 = 0 → bits val.toNat 4 2 ≠ 3 →
      ∃ u, exec (.stopArm 0 val) s = .next u ∧ u.fld Reg.stopStatus 0 3 = 1 ∧ u.fld Reg.stopStatus 5 1 = 0 ∧
        u.clk = { s.clk with stopT := t, stopAction := bits val.toNat 4 2 } ∧
        s.onlyRegs { u with clk := s.clk } [Reg.stopLo, Reg.stopHi, Reg.stopCtl, Reg.stopStatus]) ∧
    (t < s.now + 2000 ∨ s.fld Reg.stopStatus 0 3 ≠ 0 ∨ bits val.toNat 4 2 = 3 →
      ∃ u, exec (.stopArm 0 val) s = .next u ∧ u.fld Reg.stopStatus 6 1 = 1 ∧
        u.fld Reg.stopStatus 0 3 = s.fld Reg.stopStatus 0 3 ∧ s.onlyRegs u [Reg.stopCtl, Reg.stopStatus])) ∧
  (∀ (s : State) (val : BitVec 32), Reachable s 0 Reg.stopCtl → bits val.toNat 0 4 = 2 →
    (s.fld Reg.stopStatus 0 3 = 0 → ∃ u, exec (.stopCancel 0 val) s = .next u ∧ s.onlyRegs u [Reg.stopCtl]) ∧
    (s.fld Reg.stopStatus 0 3 = 1 → s.now + 2000 < s.clk.stopT →
      ∃ u, exec (.stopCancel 0 val) s = .next u ∧ u.fld Reg.stopStatus 0 3 = 0 ∧
        u.fld Reg.stopStatus 3 1 = s.fld Reg.stopStatus 3 1 ∧ s.onlyRegs u [Reg.stopCtl, Reg.stopStatus]) ∧
    (s.fld Reg.stopStatus 0 3 = 1 → s.clk.stopT ≤ s.now + 2000 →
      ∃ u, exec (.stopCancel 0 val) s = .next u ∧ u.fld Reg.stopStatus 0 3 = 1 ∧ u.fld Reg.stopStatus 3 1 = 1 ∧
        s.onlyRegs u [Reg.stopCtl, Reg.stopStatus])) ∧
  (∀ (s : State) (t : Nat), s.alive = true →
    (s.fld Reg.stopStatus 0 3 = 1 → s.clk.stopT ≤ (s.atTime t).now →
      ∃ u, exec (.stopTimeReached t) s = .next u ∧ u.fld Reg.stopStatus 0 3 = 2 ∧ u.stopped = true ∧
        (s.atTime t).onlyRegs u [Reg.stopStatus]) ∧
    (∀ a b : Nat, s.fld Reg.stopStatus 0 3 = 2 →
      ∃ u, exec (.stopAllHalted a b t) s = .next u ∧ u.fld Reg.stopStatus 0 3 = 3 ∧ u.fld Reg.stopSpan 0 16 = min a 65535 ∧
        u.fld Reg.stopSpan 16 16 = min b 65535 ∧ (s.atTime t).onlyRegs u [Reg.stopStatus, Reg.stopSpan]) ∧
    (s.fld Reg.stopStatus 0 3 = 3 →
      ∃ u, exec (.stopDumpDone t) s = .next u ∧ u.fld Reg.stopStatus 4 1 = 1 - s.fld Reg.ras 4 1 ∧ u.fld Reg.ras 4 1 = 1 ∧
        (s.fld Reg.ras 4 1 = 1 → u.ras = s.ras) ∧
        (s.fld Reg.ras 4 1 = 0 → ∀ d ∈ u.ras.dump, d.trigger = 2 ∧ d.stop = s.clk.stopT) ∧
        (s.clk.stopAction ≠ 1 → s.clk.stopAction ≠ 2 → u.fld Reg.stopStatus 0 3 = 4) ∧
        (s.clk.stopAction = 1 ∨ s.clk.stopAction = 2 → u.fld Reg.stopStatus 0 3 = 5 ∧
          u.clk.resumeAt = alignUp ((s.atTime t).now + 2000) 4 ∧ u.clk.stopReset = (s.clk.stopAction == 2)))) ∧
  (∀ (s : State) (val : BitVec 32), s.reaches 0 = true → s.decodes 0 Reg.stopCtl = true → bits val.toNat 0 2 = 0 →
    s.fld Reg.stopStatus 0 3 = 4 →
    (bitB val.toNat 2 = true → ∃ u, exec (.stopResume 0 val) s = .next u ∧ u.fld Reg.stopStatus 0 3 = 5 ∧
      u.clk = { s.clk with resumeAt := alignUp (s.now + 2000) 4, stopReset := bitB val.toNat 3 } ∧
      s.onlyRegs { u with clk := s.clk } [Reg.resumeLo, Reg.resumeHi, Reg.stopCtl, Reg.stopStatus]) ∧
    (bitB val.toNat 3 = true → ∃ u, exec (.stopReset 0 val) s = .next u ∧ u.fld Reg.stopStatus 0 3 = 5 ∧
      u.clk = { s.clk with resumeAt := alignUp (s.now + 2000) 4, stopReset := true } ∧
      s.onlyRegs { u with clk := s.clk } [Reg.resumeLo, Reg.resumeHi, Reg.stopCtl, Reg.stopStatus])) ∧
  (∀ (s : State) (t : Nat), s.alive = true → s.fld Reg.stopStatus 0 3 = 5 → s.clk.resumeAt ≤ (s.atTime t).now →
    exec (.stopRelease t) s = .next (s.atTime t).released ∧
    (s.fe.stopHeld = [] →
      let d := s.clk.resumeAt - s.clk.stopT
      let u := (s.atTime t).released
      u.fld Reg.stopStatus 0 3 = 0 ∧ u.stopped = false ∧
      u.fe.cmds = s.fe.cmds.map (fun c => { c with deadline := c.deadline + d, begun := c.begun + d }) ∧
      u.fld Reg.clkStatus 0 4 = max s.mgmt.thermal s.mgmt.power % 16 ∧ u.mem = s.mem ∧ u.out = s.out ∧
      (∀ n, n < 4 → u.port n = Port.later d (s.atTime t).now (s.port n)) ∧
      (∀ p, p < 8 → s.clk.stopReset = true → s.configured p = true → (u.part p).resetDue = true)))

/-- A unit without progress for the watchdog's time ends its work with 0x0801, leaves a record and asks for a compute reset, and a
parity error in a dispenser's state asks for one too; the patrol corrects a single error and poisons an uncorrectable word; a stack
retrains and comes back at a lower rate; a FAULTY or fence bit written as 0 starts the unit's self-test, which clears the bit if it
passes and leaves a record of the first pattern that failed if not; a unit is retired by a 1; Wingbeat counts beats, and the fourth
missed beat restarts the firmware; the restart holds the processors, disarms Wingbeat and a stop that was armed, closes the sessions
and asks for a compute reset of every partition; RAS_IRQ raises the vector if it is enabled while PENDING is set; a read of the window
shows its unit, and one of its last register goes on. (spec/12_integrity_and_recovery.md, spec/07_memory_system.md,
spec/16_counters_trace_tensor_watch.md.) -/
def Obligations.FaultsAreFoundAndRecovered : Prop :=
  (∀ (s : State) (core t p : Nat) (u : CoreUnit), core < 24 → unitNum u < 4 → s.coreOwner core = some p →
    ((s.atTime t).unitWork core p u = none → exec (.unitWatchdogExpiry core u t) s = .next s) ∧
    (∀ (c : Cmd) (last : Nat), (s.atTime t).unitWork core p u = some (c, last) → s.active = true → s.configured p = true →
      s.fld Reg.watchdog 0 16 ≠ 0 →
      (last + 1000000 * s.fld Reg.watchdog 0 16 ≤ (s.atTime t).now → exec (.unitWatchdogExpiry core u t) s =
        .next ((((s.atTime t).endBroken c core 0x0801).logCore core
          { kind := 0x28, severity := 3, unit := unitNum u, queue := c.queue, submit := c.seq.toNat, status := 0x0801 }).needReset p)) ∧
      ((s.atTime t).now < last + 1000000 * s.fld Reg.watchdog 0 16 → exec (.unitWatchdogExpiry core u t) s = .next s))) ∧
  (∀ (s : State) (core p pc st : Nat) (r : VRun) (c : Cmd), (s.core core).run = some r → s.cmd? r.cmd = some c →
    s.unitWork core p .vector = some (c, (s.core core).prog.get (fun _ => 0) 1) ∧
    (c.op = 0x22 → ∃ k, s.endBroken c core st = s.stopRun c st k) ∧
    ((s.retireInsn core pc).core core).prog.get (fun _ => 0) 1 = s.now) ∧
  (∀ (s : State) (core p : Nat) (chunk : Bool), core < 24 → s.coreOwner core = some p → s.active = true →
    (s.part p).resetDue = false → exec (.tileRequest core chunk true) s = .next (s.dispenserParity p) ∧
      ((s.dispenserParity p).part p).resetDue = s.configured p) ∧
  (∀ (s : State) (p : Nat), ((s.needReset p).part p).resetDue = (s.configured p || (s.part p).resetDue)) ∧
  (∀ (s : State) (stack off : Nat) (seen : WordState), stack < 8 → off < 0xC00000000 → s.active = true → s.offline stack = false →
    s.fld (Reg.memStatus stack) 3 1 = 0 → s.fld (Reg.memScrub stack) 15 1 = 0 → (∀ p, p < 8 → s.traceState p = 0) →
    let w := (stackBase stack + off) / 16
    let one := s.mem.hbmOne.get (fun _ => false) w
    (s.hbmBad w = false → one = false → seen = .sound → exec (.patrolRead stack off seen) s = .next s) ∧
    (s.hbmBad w = false → (seen = .single ∨ (seen = .sound ∧ one = true)) →
      ∃ u, exec (.patrolRead stack off seen) s = .next u ∧ u.mem = { s.mem with hbmOne := u.mem.hbmOne } ∧
      u.mem.hbmOne.get (fun _ => false) w = false ∧ u.fe.cmds = s.fe.cmds ∧
      u.fld (Reg.memCe stack) 0 32 = min (s.fld (Reg.memCe stack) 0 32 + 1) (2 ^ 32 - 1) ∧
      u.reg (Reg.memErrLo stack) = BitVec.ofNat 32 off ∧ u.fld (Reg.memErrHi stack) 4 1 = 0) ∧
    (s.hbmBad w = true ∨ seen = .uncorrectable → ∃ u, exec (.patrolRead stack off seen) s = .next u ∧ u.hbmBad w = true ∧
      (∀ x, x ≠ w → u.hbmBad x = s.hbmBad x) ∧ u.mem = { s.mem with hbmBad := u.mem.hbmBad, hbmOne := u.mem.hbmOne } ∧
      u.fld (Reg.memUe stack) 0 32 = min (s.fld (Reg.memUe stack) 0 32 + 1) (2 ^ 32 - 1) ∧
      u.reg (Reg.memErrLo stack) = BitVec.ofNat 32 off ∧ u.fld (Reg.memErrHi stack) 4 1 = 1)) ∧
  (∀ (s : State) (stack : Nat), stack < 8 → s.active = true → s.offline stack = false →
    (s.fwRuns = true → s.fld (Reg.memStatus stack) 3 1 = 0 → s.fld (Reg.memThresh stack) 0 16 ≠ 0 →
      s.fld (Reg.memThresh stack) 0 16 < s.ras.derate.get (fun _ => 0) stack →
      ∃ u, exec (.stackRetrain stack) s = .next u ∧ u.fld (Reg.memStatus stack) 3 1 = 1 ∧
        u.fld (Reg.memStatus stack) 0 2 = s.fld (Reg.memStatus stack) 0 2 ∧ s.onlyRegs u [Reg.memStatus stack]) ∧
    (s.ras.derate.get (fun _ => 0) stack ≤ s.fld (Reg.memThresh stack) 0 16 → exec (.stackRetrain stack) s = .next s) ∧
    (∀ rate, rate ≤ 3 → s.fld (Reg.memStatus stack) 3 1 = 1 → s.fld (Reg.memStatus stack) 0 2 < rate →
      ∃ u, exec (.stackRetrainDone stack rate) s = .next u ∧ u.fld (Reg.memStatus stack) 3 1 = 0 ∧
        u.fld (Reg.memStatus stack) 0 2 = rate ∧ u.mem = s.mem ∧ u.ras.derate.get (fun _ => 0) stack = 0 ∧
        u.fld Reg.alerts 6 1 = 1)) ∧
  (∀ (s : State) (core : Nat) (u : CoreUnit), core < 24 → unitNum u < 4 → Reachable s 0 (unitFlag u core).1 →
    (s.unitOut core u = true → (s.core core).testing.contains u = false →
      ∃ t, exec (.unitReturnToService 0 core u) s = .next t ∧ t = { s with cores := t.cores } ∧
        t.core core = { s.core core with testing := (s.core core).testing ++ [u] } ∧ ∀ k, k ≠ core → t.core k = s.core k) ∧
    (s.unitOut core u = false → exec (.unitReturnToService 0 core u) s = .next s) ∧
    ((∃ a, u = .array a) → exec (.unitRetire 0 core u) s = .next s) ∧
    ((∀ a, u ≠ .array a) → s.unitOut core u = false →
      let v := s.setFld (unitFlag u core).1 (unitFlag u core).2 1 1
      v.unitOut core u = true ∧ s.onlyRegs v [(unitFlag u core).1] ∧
      (s.coreOwner core = none → exec (.unitRetire 0 core u) s = .next v) ∧
      (∀ p, s.coreOwner core = some p → exec (.unitRetire 0 core u) s = .next ((v.keepRunning core p u).endNoAttention p) ∧
        (u ≠ .attention → v.keepRunning core p u = v) ∧ ((s.part p).att = [] → v.endNoAttention p = v)))) ∧
  (∀ (s : State) (core : Nat) (u : CoreUnit) (passed : Bool) (runs : List PatternRun), core < 24 → unitNum u < 4 → s.active = true →
    let v0 := s.updCore core fun k => { k with testing := k.testing.filter (· != u) }
    let v := match u with | .array a => v0.resetConverter core a | _ => v0
    ((s.core core).testing.contains u = true →
      (unitDiag u passed runs = 0 → exec (.selfTestDone core u passed runs) s = .next (v.unitBack core u) ∧
        ((∀ a, u ≠ .array a) ∨ (s.core core).tiles = [] → (v.unitBack core u).unitOut core u = false ∧
          ((v.unitBack core u).core core).testing = (s.core core).testing.filter (· != u) ∧
          v.unitBack core u = { s with regs := (v.unitBack core u).regs, cores := (v.unitBack core u).cores })) ∧
      (unitDiag u passed runs ≠ 0 → exec (.selfTestDone core u passed runs) s =
        .next (v.logSelfTest core u (unitDiag u passed runs)))) ∧
    ((s.core core).testing.contains u = false → exec (.selfTestDone core u passed runs) s = .next s) ∧
    (∀ a, a < 4 → (s.core core).bist.contains a = true → exec (.fencedArraySelfTest core a runs) s =
      .next (((s.updCore core fun k => { k with bist := k.bist.filter (· != a) }).resetConverter core a).logCore core
        { kind := 0x40, severity := 2, unit := a, diag := selfDiag runs }))) ∧
  (∀ runs : List PatternRun, (selfDiag runs = 0 ↔ ∀ p, p < 4 → patternOk p (runs.getD p { checked := false }) = true) ∧
    ∀ p, selfDiag runs = p + 1 → p < 4 ∧ patternOk p (runs.getD p { checked := false }) = false ∧
      ∀ q, q < p → patternOk q (runs.getD q { checked := false }) = true) ∧
  (∀ s : State, s.active = true →
    (s.eclosed = true → s.fwRuns = true →
      (∃ u, exec .wingbeatArm s = .next u ∧ u.fld Reg.ras 0 1 = 1 ∧ u.reg Reg.missed = 0 ∧
        u.ras = { s.ras with wbLast := (s.reg Reg.wingbeat).toNat } ∧ s.onlyRegs { u with ras := s.ras } [Reg.ras, Reg.missed]) ∧
      (∃ u, exec .wingbeatBeat s = .next u ∧ u.reg Reg.wingbeat = s.reg Reg.wingbeat + 1 ∧ s.onlyRegs u [Reg.wingbeat])) ∧
    (s.fld Reg.ras 0 1 = 1 → ∀ t : Nat,
      let w := s.atTime t
      let r : Ras := { s.ras with wbLast := (s.reg Reg.wingbeat).toNat }
      ((s.reg Reg.wingbeat).toNat ≠ s.ras.wbLast → ∃ u, exec (.wingbeatSample t) s = .next u ∧ u.fld Reg.missed 0 3 = 0 ∧ u.ras = r ∧
        w.onlyRegs { u with ras := s.ras } [Reg.missed]) ∧
      ((s.reg Reg.wingbeat).toNat = s.ras.wbLast → s.fld Reg.missed 0 3 < 3 → ∃ u, exec (.wingbeatSample t) s = .next u ∧
        u.fld Reg.missed 0 3 = s.fld Reg.missed 0 3 + 1 ∧ u.ras = r ∧ w.onlyRegs { u with ras := s.ras } [Reg.missed]) ∧
      ((s.reg Reg.wingbeat).toNat = s.ras.wbLast → s.fld Reg.missed 0 3 = 3 → ∃ v : State,
        exec (.wingbeatSample t) s = .next (v.fwRestart 1) ∧ v.fld Reg.missed 0 3 = 4 ∧ v.ras = r ∧
        w.onlyRegs { v with ras := s.ras } [Reg.missed]))) ∧
  (∀ (s : State) (val : BitVec 32), Reachable s 0 0x150001C →
    (bitB val.toNat 0 = true → exec (.firmwareRestart 0 val) s = .next (s.fwRestart 3)) ∧
    (bitB val.toNat 0 = false → exec (.firmwareRestart 0 val) s = .next s)) ∧
  (∀ (s : State) (k : Nat), s.firmwareCmds = [] →
    let u := s.fwRestart k
    u.fwRuns = false ∧ u.fld Reg.ras 1 1 = 1 ∧ u.fld Reg.ras 0 1 = 0 ∧ u.fld Reg.alerts 4 1 = 1 ∧ u.fld Reg.secStatus 0 4 = 5 ∧
      (s.fld Reg.stopStatus 0 3 = 1 → u.fld Reg.stopStatus 0 3 = 0) ∧
      (s.fld Reg.stopStatus 0 3 ≠ 1 → u.fld Reg.stopStatus 0 3 = s.fld Reg.stopStatus 0 3) ∧
      u.boot = { s.boot with sessions := [], inbox := [], large := [] } ∧ u.fe.cmds = s.fe.cmds ∧ u.mem = s.mem ∧
      (s.fld Reg.ras 4 1 = 0 → ∀ d ∈ u.ras.dump, d.trigger = k) ∧
      (∀ p, p < 8 → s.configured p = true → (u.part p).resetDue = true)) ∧
  (∀ (s : State) (val : BitVec 32), Reachable s 0 Reg.rasIrq →
    let v := s.setReg Reg.rasIrq (val &&& 0x800007FF)
    (s.fld Reg.rasIrq 31 1 = 0 → bitB val.toNat 31 = true → s.fld Reg.ras 3 1 = 1 →
      exec (.rasIrqWrite 0 val) s = .next (v.raise 0 (bits val.toNat 0 11))) ∧
    (s.fld Reg.rasIrq 31 1 = 1 ∨ bitB val.toNat 31 = false ∨ s.fld Reg.ras 3 1 = 0 → exec (.rasIrqWrite 0 val) s = .next v)) ∧
  (∀ s : State, s.reaches 0 = true →
    (∀ off size : Nat, 0 < size → size ≤ 8 → Reg.windowData ≤ off → off + size ≤ Reg.windowData + 64 →
      (∀ o ∈ touched off size, s.decodes 0 o = true) →
      ∃ u, exec (.rasWindowDataRead 0 off size) s = .next u ∧
        u.out = s.out ++ [.readData 0 off ((s.windowUnit.drop (off - Reg.windowData)).take size)] ∧
        u.fld Reg.rasWindow 4 20 = (s.fld Reg.rasWindow 4 20 + (if Reg.windowData + 60 < off + size then 1 else 0)) % 2 ^ 20 ∧
        u.fld Reg.rasWindow 0 4 = s.fld Reg.rasWindow 0 4 ∧
        s.onlyRegs { u with out := s.out, free := s.free } [Reg.rasWindow]) ∧
    (∀ r : LogRec, s.fld Reg.rasWindow 3 1 = 1 → s.fld Reg.rasWindow 4 20 < 65536 →
      s.ras.log.get (fun _ => none) (logKey (s.fld Reg.rasWindow 0 3) (s.fld Reg.rasWindow 4 20)) = some r →
      s.windowUnit = r.bytes)) ∧
  (∀ r : LogRec, r.bytes.length = 64 ∧ num r.bytes 0 1 = r.kind % 256 ∧ num r.bytes 8 8 = r.time % 2 ^ 64 ∧
    num r.bytes 24 2 = r.status % 65536 ∧ num r.bytes 60 4 = crc32 (r.bytes.take 60) % 2 ^ 32)

/-- The assertion of PERST# clears everything but the fuses, the pins and the power status, and its rise boots the device to STATE 1 at
the trained stack rates, or to ERROR 0xF if the fuses fail; a warm reset keeps HBM contents, the time, the error log and the dump,
counts itself and boots on the rise; a hot reset does so at once; without power nothing is kept but the fuses; a brown-out of VDD_CORE,
the HBM or the fuse supplies acts as R488 gives it, and the device boots again when every supply is back; the thermal trip loses HBM
contents until power is cycled, which here the removal of VDD_CORE begins (the model's reading: log entry 41); what a boot that stops
at a fuse shows is the model's choice (log entry 5); a function-level reset drops the function's queues, commands and sessions and asks
for compute resets, and a stop holds it. (spec/15_clocks_resets_global_stop.md, spec/14_boot_measurement_attestation.md,
spec/18_package_pins_power.md, spec/09_host_interface_and_queues.md.) -/
def Obligations.ResetsAndSupplies : Prop :=
  let booted := fun (s u : State) (rates : BitVec 16) =>
    u.alive = true ∧ u.fld Reg.secStatus 0 4 = 1 ∧ u.fld Reg.clkStatus 4 1 = 1 ∧ u.reg Reg.straps = BitVec.ofNat 32 u.clk.straps ∧
    (∀ st, st < 8 → u.fld (Reg.memStatus st) 0 2 = bits rates.toNat (2 * st) 2 ∧
      u.fld Reg.clkStatus (5 + st) 1 = b2n (bits rates.toNat (2 * st) 2 != 3)) ∧
    (∀ n, n < 4 → bitB s.clk.ethLost n = false → u.fld (Reg.net n 0) 0 3 = 1 ∧ u.fld Reg.clkStatus (13 + n) 1 = 1) ∧
    u.mem.hbm = s.mem.hbm ∧ u.mem.hbmBad = s.mem.hbmBad ∧ u.mem.hbmOne = s.mem.hbmOne ∧ u.fuses = s.fuses
  let blank := fun (s u : State) =>
    u = { State.reset with pending := s.pending, free := s.free, out := s.out, host := s.host, fuses := s.fuses, clk := u.clk,
                           regs := u.regs }
  let warmed := fun (s u : State) =>
    u.parts = [] ∧ u.cores = [] ∧ u.ports = [] ∧ u.dtables = [] ∧ u.fe = {} ∧ u.boot = {} ∧ u.mgmt = {} ∧ u.fuses = s.fuses ∧
    u.mem = { State.reset.mem with hbm := s.mem.hbm, hbmBad := s.mem.hbmBad, hbmOne := s.mem.hbmOne } ∧ u.clk.time = s.clk.time ∧
    u.ras.log = s.ras.log ∧ u.ras.dump = s.ras.dump ∧ u.out = s.out ∧ u.pending = s.pending ∧
    ∀ st, st < 8 → u.reg (Reg.logNext st) = s.reg (Reg.logNext st)
  (∀ s : State,
    (s.clk.perst = true → exec .perstAssertion s = .next s) ∧
    (s.clk.perst = false → ∃ u, exec .perstAssertion s = .next u ∧ u.alive = false ∧ u.clk.perst = true ∧ u.clk.warm = false ∧
      blank s u ∧ u.reg Reg.pwr = s.reg Reg.pwr ∧ ∀ k, k ≠ Reg.pwr → u.reg k = regReset k)) ∧
  (∀ (s : State) (fuseOk : Bool) (nonce : BitVec 256) (rates : BitVec 16),
    s.clk.warm = false → s.clk.tripped = false → s.clk.heldBy = 0 →
    let clk : Clk := { s.clk with perst := false, powered := true, straps := s.clk.strapBalls % 16, strapsDue := false,
                                  fresh := false, bootNonce := if s.clk.fresh then nonce else s.clk.bootNonce }
    let later : Clk := if s.clk.strapsDue then clk else { clk with straps := s.clk.straps }
    (s.clk.perst = true → s.clk.powered = true →
      (fuseOk = true → s.fld Reg.secStatus 4 4 ≠ 0xF →
        ∃ u, exec (.fundamentalReset fuseOk nonce rates) s = .next u ∧ booted s u rates ∧ u.clk = clk) ∧
      (fuseOk = false ∨ s.fld Reg.secStatus 4 4 = 0xF → ∃ u, exec (.fundamentalReset fuseOk nonce rates) s = .next u ∧
        u.fld Reg.secStatus 4 4 = 0xF ∧ u.clk = clk ∧ u.fld Reg.secStatus 0 4 = s.fld Reg.secStatus 0 4 ∧
        s.onlyRegs { u with clk := s.clk }
          [Reg.clkStatus, Reg.secStatus, Reg.straps, Reg.mbxLink, Reg.gctlId, Reg.fuseState])) ∧
    (s.clk.powered = false →
      (s.clk.perst = true → exec (.powerUp fuseOk nonce rates) s = .next { s with clk := { s.clk with powered := true } }) ∧
      (s.clk.perst = false → fuseOk = true → s.fld Reg.secStatus 4 4 ≠ 0xF →
        ∃ u, exec (.powerUp fuseOk nonce rates) s = .next u ∧ booted s u rates ∧ u.clk = later)) ∧
    (∀ supply, supply = 10 ∨ supply = 11 →
      exec (.supplyReturn supply fuseOk nonce rates) s = exec (.powerUp fuseOk nonce rates) s)) ∧
  (∀ (s : State) (fuseOk : Bool) (rates : BitVec 16), s.clk.powered = true → s.clk.tripped = false → s.clk.perst = false →
    (s.clk.warm = false → ∃ u, exec (.warmReset true fuseOk rates) s = .next u ∧ u.alive = false ∧ u.clk.warm = true ∧ warmed s u ∧
      u.fld Reg.resets 0 16 = min (s.fld Reg.resets 0 16 + 1) 65535 ∧ u.fld Reg.resets 16 16 = s.fld Reg.resets 16 16) ∧
    (s.clk.warm = true → s.clk.heldBy = 0 → fuseOk = true → s.fld Reg.secStatus 4 4 ≠ 0xF →
      ∃ u, exec (.warmReset false fuseOk rates) s = .next u ∧ booted s u rates ∧ u.clk.time = s.clk.time) ∧
    (∀ low, s.clk.warm = low → exec (.warmReset low fuseOk rates) s = .next s) ∧
    (s.alive = true → fuseOk = true → s.fld Reg.secStatus 4 4 ≠ 0xF →
      ∃ u, exec (.hotReset fuseOk rates) s = .next u ∧ booted s u rates ∧ u.clk.time = s.clk.time ∧ u.parts = [] ∧ u.fe.cmds = [] ∧
        u.fld Reg.resets 16 16 = min (s.fld Reg.resets 16 16 + 1) 65535 ∧ u.fld Reg.resets 0 16 = s.fld Reg.resets 0 16)) ∧
  (∀ s : State,
    (s.clk.powered = true → ∃ u, exec .powerLoss s = .next u ∧ u.alive = false ∧ u.clk.powered = false ∧ blank s u ∧
      ∀ k, u.reg k = regReset k) ∧
    (s.clk.powered = false → exec .powerLoss s = .next s) ∧
    (s.clk.powered = true → s.clk.tripped = false → exec .thermtrip s =
      .next { s with clk := { s.clk with tripped := true }, mem := { s.mem with hbm := [], hbmBad := [], hbmOne := [] } }) ∧
    (s.clk.tripped = true → exec .thermtrip s = .next s ∧ s.alive = false)) ∧
  (∀ s : State, s.clk.powered = true → s.clk.tripped = true → s.fld Reg.pwr 0 1 = 1 → ∃ u, exec (.brownOut 0) s = .next u ∧
    blank s u ∧ u.alive = false ∧ u.clk.tripped = false ∧ u.clk.heldBy = setBits s.clk.heldBy 0 1 1 ∧ u.fld Reg.pwr 0 1 = 0) ∧
  (∀ (s : State) (b : Nat), s.clk.powered = true → s.clk.tripped = false →
    (b = 10 ∨ b = 11 → exec (.brownOut b) s = exec .powerLoss s) ∧
    (b < 10 → s.fld Reg.pwr b 1 = 0 → exec (.brownOut b) s = .next s) ∧
    (b < 10 → s.fld Reg.pwr b 1 = 1 → ∃ u, exec (.brownOut b) s = .next u ∧ u.fld Reg.pwr b 1 = 0 ∧
      (s.clk.perst = false → u.fld Reg.pwr (16 + b) 1 = 1) ∧ (b ≠ 9 → u.alive = false ∧ u.clk.heldBy = setBits s.clk.heldBy b 1 1) ∧
      (b = 9 → s.onlyRegs u [Reg.pwr]) ∧ (5 ≤ b → b ≤ 7 → blank s u) ∧
      (b < 5 ∨ b = 8 → s.clk.perst = false → warmed s u) ∧
      (b < 5 ∨ b = 8 → s.clk.perst = true → s.onlyRegs { u with clk := s.clk } [Reg.pwr]))) ∧
  (∀ (s : State) (b : Nat) (fuseOk : Bool) (nonce : BitVec 256) (rates : BitVec 16), b < 10 → s.clk.powered = true →
    s.clk.tripped = false →
    (s.fld Reg.pwr b 1 = 1 → exec (.supplyReturn b fuseOk nonce rates) s = .next s) ∧
    (s.fld Reg.pwr b 1 = 0 →
      (b = 9 → exec (.supplyReturn b fuseOk nonce rates) s = .next (s.setFld Reg.pwr 9 1 1)) ∧
      (b ≠ 9 → setBits s.clk.heldBy b 1 0 ≠ 0 ∨ s.clk.perst = true ∨ s.clk.warm = true →
        exec (.supplyReturn b fuseOk nonce rates) s =
          .next { s.setFld Reg.pwr b 1 1 with clk := { s.clk with heldBy := setBits s.clk.heldBy b 1 0 } }) ∧
      (b ≠ 9 → setBits s.clk.heldBy b 1 0 = 0 → s.clk.perst = false → s.clk.warm = false → fuseOk = true →
        s.fld Reg.secStatus 4 4 ≠ 0xF →
        ∃ u, exec (.supplyReturn b fuseOk nonce rates) s = .next u ∧ booted s u rates ∧ u.fld Reg.pwr b 1 = 1))) ∧
  (∀ (s : State) (fn : Nat), fn < 9 → s.alive = true → s.fnExists fn = true →
    (s.stopped = true → exec (.functionLevelReset fn) s = .next (s.holdInbound (.functionLevelReset fn))) ∧
    (s.stopped = false → ∃ u, exec (.functionLevelReset fn) s = .next u ∧ (∀ x ∈ u.boot.sessions, x.rsp ≠ fn) ∧
      (∀ e ∈ u.fe.sqs, e.2.fn ≠ fn) ∧ (∀ e ∈ u.fe.cqs, e.2.fn ≠ fn) ∧ (∀ r ∈ u.fe.ringReads, r.fn ≠ fn) ∧
      (fn = 0 → s.fe.cmds = [] → ∀ p, p < 8 → s.configured p = true → (u.part p).resetDue = true) ∧
      (fn ≠ 0 → s.fe.cmds = [] → (s.configured (fn - 1) = true → (u.part (fn - 1)).resetDue = true) ∧
        ∀ k, regKey fn msixBase ≤ k → k < regKey fn msixBase + 0x8100 → u.reg k = regReset k)))

/-- GO at STATE 1 or 5 reads the named image and certificate at STATE 2, the reads in order behind the physical function's required
stream while it is not live, or fails check 1 and stays; a fetched image that fails a check
returns the device to the waiting state with that ERROR and no measurement or fuse changed; one that passes is measured in
MR1 and MR2, or in MR3 after a restart, may raise MIN_SVN and revoke lower slots, and hands over at STATE 4; a blow without
its supply stops with ERROR 0xF. SEC_DEBUG_CLOSE blows the debug fuse and keeps DEBUG_AT_BOOT. KEY_IMPORT puts the unwrapped
key into its slot, or completes with 0x0A02, 0x0A11 or 0x0104; WEIGHTS_LOAD_SEALED seals the destination unless the source is
plaintext, then writes the opened chunks and appends the weight set and its log entry, or unloads, unseals and completes with its
status. (spec/14_boot_measurement_attestation.md, spec/18_package_pins_power.md.) -/
def Obligations.ImagesKeysAndSealedWeights : Prop :=
  (∀ (s : State) (val : BitVec 32), Reachable s 0 0x170001C →
    let st := s.fld Reg.secStatus 0 4
    let ok := s.imageAt % 64 = 0 ∧ imageLenOk s.imageLen = true
    let m := s.fe.maxRead
    let ask := fun (d a n : Nat) => (List.range (ceilDiv n m)).map (fun i =>
      Out.hostRead 0 (Config.freeNat d i % 1024) (a + m * i) (min m (n - m * i)))
    let reads := ask s.free s.imageAt s.imageLen ++ ask (s.free + 1) (s.reg64 Reg.certLo Reg.certHi) s.certLen
    (bitB val.toNat 0 = false ∨ (st ≠ 1 ∧ st ≠ 5) → exec (.go 0 val) s = .next s) ∧
    (bitB val.toNat 0 = true → st = 1 ∨ st = 5 →
      (¬ok → ∃ u, exec (.go 0 val) s = .next u ∧ u.fld Reg.secStatus 0 4 = st ∧ u.fld Reg.secStatus 4 4 = 1 ∧
        u.fld Reg.secStatus 8 8 = min (s.fld Reg.secStatus 8 8 + 1) 255 ∧ u.boot = { s.boot with waiting := st } ∧
        s.onlyRegs { u with boot := s.boot } [Reg.secStatus]) ∧
      (ok → ∃ u, exec (.go 0 val) s = .next u ∧ u.fld Reg.secStatus 0 4 = 2 ∧ u.fld Reg.secStatus 4 4 = 0 ∧
        u.boot = { s.boot with waiting := st } ∧
        (s.ideBlocked 0 = false → u.out = s.out ++ reads ∧ u.fe = s.fe) ∧
        (s.ideBlocked 0 = true → u.out = s.out ∧ u.fe = { s.fe with heldIde := s.fe.heldIde ++ reads.map (fun o => (0, o)) }) ∧
        s.onlyRegs { u with boot := s.boot, out := s.out, fe := s.fe, free := s.free } [Reg.secStatus]))) ∧
  (∀ (s : State) (readOk : Bool) (image cert : List (BitVec 8)), s.alive = true → s.fld Reg.secStatus 0 4 = 2 →
    s.fld Reg.secStatus 4 4 ≠ 0xF →
    let img := padTo s.imageLen image
    let v := if readOk then s.storeImage img else s
    (s.askHeld = true → exec (.imageFetched readOk image cert) s = .next s) ∧
    (s.askHeld = false → s.stopped = true →
      exec (.imageFetched readOk image cert) s = .next (s.holdInbound (.imageFetched readOk image cert))) ∧
    (s.askHeld = false → s.stopped = false →
      (∀ e, e < 16 → v.imageFault readOk img = some e → ∃ u, exec (.imageFetched readOk image cert) s = .next u ∧
        u.fld Reg.secStatus 0 4 = s.boot.waiting % 16 ∧ u.fld Reg.secStatus 4 4 = e ∧
        u.fld Reg.secStatus 8 8 = min (s.fld Reg.secStatus 8 8 + 1) 255 ∧ v.onlyRegs u [Reg.secStatus]) ∧
      (v.imageFault readOk img = none →
        (s.fuses.after img ≠ s.fuses → s.fusePower = false → ∃ u, exec (.imageFetched readOk image cert) s = .next u ∧
          u.fld Reg.secStatus 4 4 = 0xF ∧ v.onlyRegs u [Reg.secStatus]) ∧
        (s.fuses.after img = s.fuses ∨ s.fusePower = true → ∃ u, exec (.imageFetched readOk image cert) s = .next u ∧
          u.fld Reg.secStatus 0 4 = 4 ∧ u.fld Reg.secStatus 17 1 = 1 ∧ u.eclosed = true ∧ u.fwRuns = true ∧
          u.fuses = s.fuses.after img ∧ u.mem = v.mem ∧ u.regBytes 0x1700180 8 = imageDigest img ∧ u.mr 0 = s.mr 0 ∧
          u.fld Reg.fuseState 17 2 = imageSlot img ∧ u.fld Reg.fuseState 0 1 = s.fld Reg.fuseState 0 1 ∧
          u.fld Reg.gctlId 0 1 = b2n (!s.fuses.debugClosed) ∧
          (s.boot.waiting = 5 → u.mr 1 = s.mr 1 ∧ u.mr 2 = s.mr 2 ∧
            u.mr 3 = padTo 32 (shake256 (s.mr 3 ++ leBytes 4 4 ++ imageDigest img) 32) ∧
            u.fld Reg.secFw 16 16 = min (s.fld Reg.secFw 16 16 + 1) 65535) ∧
          (s.boot.waiting ≠ 5 → u.mr 3 = s.mr 3 ∧
            u.mr 1 = padTo 32 (shake256 (s.mr 1 ++ leBytes 4 2 ++ imageDigest img) 32) ∧
            u.fld Reg.secFw 16 16 = s.fld Reg.secFw 16 16))))) ∧
  (∀ (s : State) (img : List Byte), s.imageFault false img = some 2 ∧
    (s.imageFault true img = none → s.imageLen = 33888 + imageBody img ∧ imageHeaderOk img = true ∧
      bitB s.fuses.keysProgrammed (imageSlot img) = true ∧ bitB s.fuses.keyRevoked (imageSlot img) = false ∧
      s.fuses.minSvn ≤ imageSvn img ∧
      Config.slhVerify ((img.drop 32).take 64) (img.take 4096) (img.drop (4096 + imageBody img)) = true) ∧
    s.fuses.minSvn ≤ (s.fuses.after img).minSvn ∧ (s.fuses.after img).debugClosed = s.fuses.debugClosed ∧
    bitB (s.fuses.after img).keyRevoked (imageSlot img) = bitB s.fuses.keyRevoked (imageSlot img) ∧
    (∀ k, bitB s.fuses.keyRevoked k = true → bitB (s.fuses.after img).keyRevoked k = true)) ∧
  (∀ (s : State) (val : BitVec 32), Reachable s 0 0x1700028 →
    (val.toNat = 0xDC1 → s.fusePower = true → ∃ u, exec (.debugClose 0 val) s = .next u ∧
      u.fuses = { s.fuses with debugClosed := true } ∧ u.fld Reg.gctlId 0 1 = 0 ∧ u.fld Reg.fuseState 1 1 = 0 ∧
      u.fld Reg.fuseState 0 1 = s.fld Reg.fuseState 0 1 ∧ s.onlyRegs { u with fuses := s.fuses } [Reg.gctlId, Reg.fuseState]) ∧
    (val.toNat ≠ 0xDC1 ∨ s.fusePower = false → exec (.debugClose 0 val) s = .next s)) ∧
  (∀ (s : State) (id : Nat) (c : Cmd) (b : List Byte), Runs s id 0x88 c → c.block = some b →
    let slot := num b 0 1
    let kem := (s.part c.part).kem
    let key := Config.gcmOpen (kmac256 (Config.kemDecap kem ((b.drop 64).take 1568))
        (padTo 32 (shake256 (padTo 1568 (Config.kemPk kem)) 32)) 32 "DN824-KEYWRAP")
      ((b.drop 24).take 12) ((b.drop 8).take 16) ((b.drop 1632).take 32) ((b.drop 1664).take 16)
    (16 ≤ slot ∨ num b 1 7 ≠ 0 ∨ num b 36 28 ≠ 0 ∨ num b 1680 48 ≠ 0 → exec (.keyImport id) s = .next (s.endRun c 0x0103 0 none)) ∧
    (slot < 16 → num b 1 7 = 0 → num b 36 28 = 0 → num b 1680 48 = 0 →
      (s.hostWindow c.part = true → exec (.keyImport id) s = .next (s.endRun c 0x0A11 0 none)) ∧
      (s.hostWindow c.part = false →
        (slot = 15 → exec (.keyImport id) s = .next (s.endRun c 0x0104 0 none)) ∧
        (slot ≠ 15 → s.sealTurn c = false → exec (.keyImport id) s = .next (s.outerRuns id)) ∧
        (slot ≠ 15 → s.sealTurn c = true →
          (key = none → exec (.keyImport id) s = .next (s.endRun c 0x0A02 0 none)) ∧
          (∀ m, key = some m → ∃ t : State, exec (.keyImport id) s = .next (t.endRun c 0 0 none) ∧
            t.keySlot c.part slot = some (padTo 32 m) ∧ (∀ k, k ≠ slot → t.keySlot c.part k = s.keySlot c.part k) ∧
            (∀ p, p ≠ c.part → t.part p = s.part p) ∧
            s.onlyRegs { t with parts := s.parts } [Reg.secPart c.part]))))) ∧
  (∀ (s : State) (id : Nat) (c : Cmd) (b : List Byte), Runs s id 0x87 c → c.block = some b → num b 44 1 < 16 → num b 45 1 < 2 →
    num b 46 18 = 0 → num b 96 32 = 0 →
    let x := c.loadArgs
    let p := s.part c.part
    let cores := (s.coresOf c.part).filter s.dmaServes
    let a := s.accOf c (cores.headD 31) true
    let full := 64 ≤ p.sealed.length ∨ 64 ≤ p.sets.length ∨ 320 ≤ p.plog.length ∨ x.ok = false ∨ s.sealTarget a x = none
    (c.phase ≠ .running →
      (s.hostWindow c.part = true → exec (.weightsLoadSealed id) s = .next (s.endRun c 0x0A11 0 none)) ∧
      (s.hostWindow c.part = false → s.sealTurn c = false → exec (.weightsLoadSealed id) s = .next s) ∧
      (s.hostWindow c.part = false → s.sealTurn c = true → x.slot ≠ 15 → s.keySlot c.part x.slot = none →
        exec (.weightsLoadSealed id) s = .next (s.endRun c 0x0A02 0 none)) ∧
      (s.hostWindow c.part = false → s.sealTurn c = true → x.slot = 15 ∨ s.keySlot c.part x.slot ≠ none →
        (full → exec (.weightsLoadSealed id) s = .next (s.endRun c 0x0104 0 none)) ∧
        (∀ ppa, ¬full → s.sealTarget a x = some ppa →
          let r := if x.slot = 15 then [] else [(ppa, alignUp x.bytes 4096)]
          ∃ u : State, exec (.weightsLoadSealed id) s = .next (u.outerRuns id) ∧ u.part c.part = { p with sealed := p.sealed ++ r } ∧
            (∀ q, q ≠ c.part → u.part q = s.part q) ∧
            (∃ c' : Cmd, u.cmd? id = some c' ∧ c'.phase = .running ∧ c'.pkt = c.pkt ∧ c'.loading = r.head?) ∧
            u.fe = { s.fe with cmds := u.fe.cmds } ∧ s.onlyRegs { u with parts := s.parts, fe := s.fe } [Reg.secPart c.part]))) ∧
    (c.phase = .running →
      (cores = [] → ∃ c' : Cmd, c'.pkt = c.pkt ∧
        exec (.weightsLoadSealed id) s = .next ((s.stopLoad c).endRun c' 0x0801 0 none)) ∧
      (cores ≠ [] →
        c.missing ((List.range x.n).flatMap (fun i => s.hostRanges a (x.record i).1 (x.record i).2)) = [] →
        let v := ((((cores.take x.n).foldl (fun s k => s.touch c.id k) s).unsealLoad c).updCmd c.id fun c => { c with aux := [] })
        let key := if x.slot = 15 then [] else (s.keySlot c.part x.slot).getD []
        (∀ chunks s1, v.openChunks a x key (List.range x.n) = .ok chunks → v.writeDva a x.dst chunks.flatten = (s1, none) →
          (x.check = false ∨ x.digest chunks = x.expect →
            ∃ (t : State) (c' : Cmd), exec (.weightsLoadSealed id) s = .next (t.endRun c' 0 (s.part c.part).sets.length none) ∧
              c'.pkt = c.pkt ∧ t = { s1 with regs := t.regs, parts := t.parts } ∧
              (t.part c.part).sets = (s1.part c.part).sets ++ [((s.part c.part).sets.length, x.setId ++ x.digest chunks)] ∧
              (t.part c.part).plog.length = (s1.part c.part).plog.length + 1 ∧
              (t.part c.part).sealed = (s1.part c.part).sealed ++ c.loading.toList) ∧
          (x.check = true → x.digest chunks ≠ x.expect → ∃ c' : Cmd, c'.pkt = c.pkt ∧
            exec (.weightsLoadSealed id) s = .next ((s1.unload a x true).endRun c' 0x0A04 0 none))) ∧
        (∀ st, v.openChunks a x key (List.range x.n) = .error (.inl st) → ∃ c' : Cmd, c'.pkt = c.pkt ∧
          exec (.weightsLoadSealed id) s = .next ((v.unload a x false).endRun c' st 0 none)))))

/-- A responder that exists answers each request with its response, the same state otherwise: version, capabilities,
algorithms, digests, a portion of the chain, a signed challenge, the measurement blocks that it serves, at most four sessions
that FINISH establishes or drops, chunks of large requests and responses, and the report of R406, which it keeps for
CHUNK_GET where the transport is too narrow; while no firmware runs it answers Busy, and a stop holds the request. A virtual
function's instance serves its own partition's measurement and report only. The response and error codes are DSP0274's, which
the spec does not give (log entry 19). (spec/14_boot_measurement_attestation.md, spec/09_host_interface_and_queues.md,
spec/17_management_sideband.md.) -/
def Obligations.RespondersAnswerRequests : Prop :=
  (∀ (s : State) (rsp : Nat), Answers s rsp →
    exec (.getVersion rsp) s = .next (s.reply rsp 0x04 [0x13]) ∧ exec (.getCapabilities rsp) s = .next (s.reply rsp 0x61 [14]) ∧
    exec (.negotiateAlgorithms rsp true) s = .next (s.reply rsp 0x63 []) ∧
    exec (.negotiateAlgorithms rsp false) s = .next (s.spdmError rsp 0x01) ∧
    exec (.getDigests rsp) s = .next (s.reply rsp 0x01 (Config.sha384 s.chain)) ∧
    (∀ off len, off < s.chain.length → exec (.getCertificate rsp 0 off len) s =
      .next (s.reply rsp 0x02 ((s.chain.drop off).take len))) ∧
    (∀ slot off len, slot ≠ 0 ∨ s.chain.length ≤ off → exec (.getCertificate rsp slot off len) s = .next (s.spdmError rsp 0x01)) ∧
    (∀ nonce, exec (.challenge rsp 0 nonce) s = .next (s.reply rsp 0x03 (Config.sha384 s.chain ++ leBytes 32 nonce.toNat ++
      Config.ecdsaSign s.spdmSeed (Config.sha384 s.chain ++ leBytes 32 nonce.toNat)))) ∧
    (∀ slot nonce, slot ≠ 0 → exec (.challenge rsp slot nonce) s = .next (s.spdmError rsp 0x01)) ∧
    (∀ b nonce m, b ≠ 0 → b ≠ 255 → s.measBlock rsp b = some m → exec (.getMeasurements rsp b nonce) s =
      .next (s.reply rsp 0x60 (s.signed (leBytes 1 b ++ m ++ leBytes 32 nonce.toNat)))) ∧
    (∀ b nonce, b ≠ 0 → b ≠ 255 → s.measBlock rsp b = none →
      exec (.getMeasurements rsp b nonce) s = .next (s.spdmError rsp 0x01)) ∧
    (∀ nonce, exec (.getMeasurements rsp 0 nonce) s =
      .next (s.reply rsp 0x60 (s.signed (leBytes 1 (if rsp = 0 ∨ rsp = 9 then 13 else 6) ++ leBytes 32 nonce.toNat)))) ∧
    (∀ m, 1 ≤ m → m ≤ 4 → s.measBlock rsp m = some (s.mr (m - 1))) ∧ s.measBlock rsp 5 = some (s.regBytes 0x1700180 8) ∧
    (∀ p, p < 8 → (s.measBlock rsp (16 + p)).isSome = (rsp == 0 || rsp == 9 || rsp == p + 1))) ∧
  (∀ (s : State) (rsp x : Nat), Answers s rsp →
    let err := fun e => (Host.Outcome.next (s.spdmError rsp e) : Answer)
    let mine := s.sessionsOf rsp
    (4 ≤ mine.length → exec (.keyExchange rsp x) s = err 0x0A) ∧
    (mine.length < 4 → mine.any (fun y => y.id == x) = true → exec (.keyExchange rsp x) s = err 0x01) ∧
    (mine.length < 4 → mine.any (fun y => y.id == x) = false → ∃ t, exec (.keyExchange rsp x) s = .next t ∧
      t.sessionsOf rsp = mine ++ [{ rsp, id := x }] ∧ (∀ r, r ≠ rsp → t.sessionsOf r = s.sessionsOf r) ∧
      t.out = s.out ++ [.reply rsp 0x64 (s.signed (leBytes 4 x))] ∧
      t = { s with boot := { s.boot with sessions := t.boot.sessions }, out := t.out }) ∧
    (mine.any (fun y => y.id == x && !y.done) = false → ∀ ok, exec (.finish rsp x ok) s = err 0x02) ∧
    (mine.any (fun y => y.id == x && !y.done) = true →
      (∃ t, exec (.finish rsp x true) s = .next t ∧ t.established rsp x = true ∧ t.out = s.out ++ [.reply rsp 0x65 []] ∧
        (∀ r y, r ≠ rsp ∨ y ≠ x → t.established r y = s.established r y) ∧
        t = { s with boot := { s.boot with sessions := t.boot.sessions }, out := t.out }) ∧
      exec (.finish rsp x false) s = .next ((s.dropSession rsp x).spdmError rsp 0x06)) ∧
    (s.established rsp x = true → exec (.keyUpdate rsp x) s = .next (s.reply rsp 0x69 []) ∧
      exec (.heartbeat rsp x) s = .next (s.reply rsp 0x68 []) ∧
      ∃ t, exec (.endSession rsp x) s = .next t ∧ t.established rsp x = false ∧ t.out = s.out ++ [.reply rsp 0x6C []] ∧
        (∀ r y, r ≠ rsp ∨ y ≠ x → t.established r y = s.established r y) ∧
        t = { s with boot := { s.boot with sessions := t.boot.sessions }, out := t.out }) ∧
    (s.established rsp x = false → exec (.keyUpdate rsp x) s = err 0x02 ∧ exec (.heartbeat rsp x) s = err 0x02 ∧
      exec (.endSession rsp x) s = err 0x02)) ∧
  (∀ (s : State) (rsp h q : Nat), Answers s rsp →
    let x := s.boot.inbox.get (fun _ => {}) rsp
    let y := s.boot.large.get (fun _ => {}) rsp
    let n := max 1 Config.chunkBytes
    (∀ last data, (q ≠ 0 ∧ q ≠ (if x.handle = h then x.seq else 0)) ∨ (rsp ≠ 9 ∧ 65536 < data.length) →
      exec (.chunkSend rsp h q last data) s = .next (s.spdmError rsp 0x01)) ∧
    (∀ last data, q = 0 ∨ q = (if x.handle = h then x.seq else 0) → rsp = 9 ∨ data.length ≤ 65536 →
      ∃ t, exec (.chunkSend rsp h q last data) s = .next t ∧
      t.out = s.out ++ [.reply rsp 0x05 (leBytes 1 h ++ leBytes 2 q)] ∧
      t.boot.inbox.get (fun _ => {}) rsp =
        (if last then {} else { handle := h, seq := q + 1, data := (if q = 0 then [] else x.data) ++ data }) ∧
      t = { s with boot := { s.boot with inbox := t.boot.inbox }, out := t.out }) ∧
    (y.data = [] ∨ y.handle ≠ h ∨ y.seq ≠ q → exec (.chunkGet rsp h q) s = .next (s.spdmError rsp 0x01)) ∧
    (y.data ≠ [] → y.handle = h → y.seq = q → ∃ t, exec (.chunkGet rsp h q) s = .next t ∧
      t.out = s.out ++ [.reply rsp 0x06 (leBytes 1 h ++ leBytes 2 q ++ leBytes 1 (b2n (decide (y.data.length ≤ n * (q + 1)))) ++
        (y.data.drop (n * q)).take n)] ∧
      (y.data.length ≤ n * (q + 1) → t.boot.large.get (fun _ => {}) rsp = {}) ∧
      (n * (q + 1) < y.data.length → t.boot.large.get (fun _ => {}) rsp = { y with seq := q + 1 }) ∧
      t = { s with boot := { s.boot with large := t.boot.large }, out := t.out })) ∧
  (∀ (s : State) (rsp vendor code scope : Nat) (nonce : BitVec 256), Answers s rsp →
    (vendor ≠ 0x1EE9 ∨ code ≠ 1 → exec (.vendorDefinedRequest rsp vendor code scope nonce) s = .next (s.spdmError rsp 0x07)) ∧
    ((8 ≤ scope ∧ scope ≠ 0xFF) ∨ (rsp ≠ 0 ∧ rsp ≠ 9 ∧ rsp ≠ scope + 1) →
      exec (.vendorDefinedRequest rsp 0x1EE9 1 scope nonce) s = .next (s.spdmError rsp 0x01)) ∧
    (scope < 8 ∨ scope = 0xFF → rsp = 0 ∨ rsp = 9 ∨ rsp = scope + 1 →
      let m := s.report scope nonce
      (m.length ≤ (if rsp = 9 then 4096 else 262144) →
        exec (.vendorDefinedRequest rsp 0x1EE9 1 scope nonce) s = .next (s.reply rsp 0x7E m)) ∧
      ((if rsp = 9 then 4096 else 262144) < m.length → ∃ t, exec (.vendorDefinedRequest rsp 0x1EE9 1 scope nonce) s = .next t ∧
        (t.boot.large.get (fun _ => {}) rsp).data = m ∧ (t.boot.large.get (fun _ => {}) rsp).seq = 0 ∧
        t = { s with boot := { s.boot with large := t.boot.large }, out := t.out, free := t.free }))) ∧
  (∀ (s : State) (scope : Nat) (nonce : BitVec 256),
    let n := if scope < 8 then (s.part scope).plog.length else 0
    (s.reportBody scope nonce).length = 2624 + 64 * n ∧ (s.report scope nonce).length = 2624 + 64 * n + 49856 ∧
    num (s.report scope nonce) 8 32 = nonce.toNat ∧ num (s.report scope nonce) 3 1 = scope % 256 ∧
    (scope < 8 → ((s.report scope nonce).drop 1024).take 1568 = s.kemBytes scope)) ∧
  (∀ (s : State) (rsp : Nat), rsp < 9 → s.alive = true → s.fnExists rsp = true →
    (s.eclosed = false ∨ s.fwRuns = false → exec (.getDigests rsp) s = .next (s.spdmError rsp 0x03)) ∧
    (s.eclosed = true → s.fwRuns = true → s.stopped = true →
      exec (.getDigests rsp) s = .next (s.holdInbound (.getDigests rsp))))

/-- A threshold written by the physical function or through SET_THRESHOLDS is stored if it lies within its range and at the
nearer bound otherwise: THROTTLE_T 60 to 105, WARN_T 50 to 105, HYST 1 to 15, LIMIT_W 400 to 1,200; a register write changes
nothing else, and the message answers with success. A sample moves each level by one as its rule says, sets the throttle
level to the higher of the two outside a stop, and raises the alerts of R471; ten milliseconds at level 8 raise the throttle
alert; the mailbox answers control messages at EID 0 and its own, and vendor messages at its own, wrong lengths with an
error; alerts are cleared by mask; the I3C address comes and goes, and the alert response address is answered while ALERT# is
low. The MCTP command and completion codes are presumed (log entry 19). (spec/17_management_sideband.md,
spec/15_clocks_resets_global_stop.md, spec/19_electrical_characteristics.md.) -/
def Obligations.SidebandSamplesAlertsAndMessages : Prop :=
  (∀ v : Nat, 60 ≤ bits (thermCfg v) 0 8 ∧ bits (thermCfg v) 0 8 ≤ 105 ∧ 50 ≤ bits (thermCfg v) 8 8 ∧
    bits (thermCfg v) 8 8 ≤ 105 ∧ 1 ≤ bits (thermCfg v) 16 4 ∧ 400 ≤ powerCfg v ∧ powerCfg v ≤ 1200 ∧
    (60 ≤ bits v 0 8 → bits v 0 8 ≤ 105 → bits (thermCfg v) 0 8 = bits v 0 8) ∧
    (bits v 0 8 < 60 → bits (thermCfg v) 0 8 = 60) ∧ (105 < bits v 0 8 → bits (thermCfg v) 0 8 = 105) ∧
    (50 ≤ bits v 8 8 → bits v 8 8 ≤ 105 → bits (thermCfg v) 8 8 = bits v 8 8) ∧
    (bits v 8 8 < 50 → bits (thermCfg v) 8 8 = 50) ∧ (105 < bits v 8 8 → bits (thermCfg v) 8 8 = 105) ∧
    (bits (thermCfg v) 16 4 = max 1 (bits v 16 4)) ∧
    (400 ≤ bits v 0 11 → bits v 0 11 ≤ 1200 → powerCfg v = bits v 0 11)) ∧
  (∀ (s : State) (val : BitVec 32), Reachable s 0 Reg.mbxTherm →
    ∃ t, exec (.thresholdWrite 0 Reg.mbxTherm val) s = .next t ∧ s.onlyRegs t [Reg.mbxTherm] ∧
      (t.reg Reg.mbxTherm).toNat = thermCfg val.toNat) ∧
  (∀ (s : State) (val : BitVec 32), Reachable s 0 Reg.mbxLimit →
    ∃ t, exec (.thresholdWrite 0 Reg.mbxLimit val) s = .next t ∧ s.onlyRegs t [Reg.mbxLimit] ∧
      (t.reg Reg.mbxLimit).toNat = powerCfg val.toNat) ∧
  (∀ (s : State) (i3c : Bool) (inst : Nat) (th pw : BitVec 32), s.mailbox = true → s.eid ≠ 0 →
    ∃ t, exec (.setThresholds i3c s.eid inst 8 th pw) s = .next t ∧
      t.out = s.out ++ [.reply (mbxPort i3c) 0x05 [BitVec.ofNat 8 inst, 0]] ∧
      s.onlyRegs { t with out := s.out } [Reg.mbxTherm, Reg.mbxLimit] ∧
      (t.reg Reg.mbxTherm).toNat = thermCfg th.toNat ∧ (t.reg Reg.mbxLimit).toNat = powerCfg pw.toNat) ∧
  (∀ (s : State) (x : Sensors) (t : Nat), s.alive = true →
    let w := s.atTime t
    let th := w.thermalRule x
    let pw := w.powerRule x
    ∃ u, exec (.sensorSample x t) s = .next u ∧ u.mgmt.sample = x ∧
      (th.1 = true → u.mgmt.thermal = min 8 (s.mgmt.thermal + 1)) ∧
      (th.1 = false → th.2 = true → u.mgmt.thermal = s.mgmt.thermal - 1) ∧
      (th.1 = false → th.2 = false → u.mgmt.thermal = s.mgmt.thermal) ∧
      (pw.1 = true → u.mgmt.power = min 8 (s.mgmt.power + 1)) ∧
      (pw.1 = false → pw.2 = true → u.mgmt.power = s.mgmt.power - 1) ∧
      (pw.1 = false → pw.2 = false → u.mgmt.power = s.mgmt.power) ∧
      u.mgmt.maxSince = (if max u.mgmt.thermal u.mgmt.power = 8 then some (s.mgmt.maxSince.getD w.now) else none) ∧
      u.fld Reg.mbxTj 0 16 = x.tj.toNat ∧ u.fld Reg.mbxPower 0 16 = min x.total 65535 ∧
      u.fld Reg.clkStatus 0 4 = (if s.stopped then s.fld Reg.clkStatus 0 4 else max u.mgmt.thermal u.mgmt.power % 16) ∧
      (atLeast x.tj (s.fld Reg.mbxTherm 8 8) = true → u.fld Reg.alerts 0 1 = 1) ∧
      (u.mgmt.thermal ≠ 0 ∨ u.mgmt.power ≠ 0 → u.fld Reg.alerts 1 1 = 1) ∧ (u.mgmt.power ≠ 0 → u.fld Reg.alerts 3 1 = 1) ∧
      w.onlyRegs { u with mgmt := s.mgmt, out := s.out } [Reg.mbxTj, Reg.mbxPower, Reg.clkStatus, Reg.alerts]) ∧
  (∀ (s : State) (x : Sensors),
    ((s.thermalRule x).1 = true ↔ (x.tj ≠ 0x8000 ∧ 8 * (s.fld Reg.mbxTherm 0 8 : Int) ≤ x.tj.toInt) ∨
      ∃ i, i < 8 ∧ s.offline i = false ∧ i < x.hbmT.length ∧ x.hbmT.getD i 0 ≠ 0x8000 ∧ 8 * 95 ≤ (x.hbmT.getD i 0).toInt) ∧
    ((s.powerRule x).1 = true ↔ 10 * s.fld Reg.mbxLimit 0 11 ≤ x.total) ∧
    ((s.thermalRule x).1 = true → (s.thermalRule x).2 = true → False)) ∧
  (∀ (s : State) (t : Nat), s.alive = true →
    ((s.atTime t).throttledOut = true → ∃ u, exec (.throttleMaxTimeout t) s = .next u ∧ u.fld Reg.alerts 2 1 = 1 ∧
      (s.atTime t).onlyRegs { u with out := s.out } [Reg.alerts]) ∧
    ((s.atTime t).throttledOut = false → exec (.throttleMaxTimeout t) s = .next s)) ∧
  (∀ (s : State) (i : Nat), i < 32 → s.fld Reg.alerts i 1 = 0 →
    let due := s.mgmt.ibi && s.fld Reg.mbxLink 7 1 == 1 && s.fld Reg.alertEnable i 1 == 1
    (s.alert i).fld Reg.alerts i 1 = 1 ∧ (s.alert i).out = s.out ++ (if due then [.inBand i] else [])) ∧
  (∀ (s : State) (i3c : Bool) (dest : Nat), s.mailbox = true →
    (dest ≠ 0 → dest ≠ s.eid → ∀ e, exec (.setEndpointId i3c dest e) s = .next s ∧ exec (.getEndpointId i3c dest) s = .next s) ∧
    (dest = 0 ∨ dest = s.eid →
      let answer := fun (c : Nat) (d : List Byte) => (Host.Outcome.next (s.emit (.reply (mbxPort i3c) c d)) : Answer)
      (∀ e, e = 0 ∨ 255 ≤ e → exec (.setEndpointId i3c dest e) s = answer 1 [2]) ∧
      (∀ e, 0 < e → e < 255 → ∃ u, exec (.setEndpointId i3c dest e) s = .next u ∧ u.eid = e ∧
        u.fld Reg.mbxLink 0 16 = s.fld Reg.mbxLink 0 16 ∧ u.out = s.out ++ [.reply (mbxPort i3c) 1 [0, BitVec.ofNat 8 e]] ∧
        s.onlyRegs { u with out := s.out } [Reg.mbxLink]) ∧
      exec (.getEndpointId i3c dest) s = answer 2 [0, BitVec.ofNat 8 s.eid] ∧
      exec (.getMctpVersionSupport i3c dest) s = answer 4 ([0] ++ Config.mctpVersions) ∧
      exec (.getMessageTypeSupport i3c dest) s = answer 5 [0, 4, 0x00, 0x05, 0x06, 0x7E] ∧
      exec (.getEndpointUuid i3c dest) s = answer 3 ([0] ++ padTo 16 Config.uuid)) ∧
    (∀ addr, ∃ u, exec (.dynamicAddressAssignment addr) s = .next u ∧ u.fld Reg.mbxLink 7 1 = 1 ∧
      u.fld Reg.mbxLink 8 7 = addr % 128 ∧ u.eid = s.eid ∧ s.onlyRegs u [Reg.mbxLink]) ∧
    (∃ u, exec .i3cDynamicAddressReset s = .next u ∧ u.fld Reg.mbxLink 7 8 = 0 ∧ u.eid = s.eid ∧ s.onlyRegs u [Reg.mbxLink]) ∧
    (∀ on, exec (.inBandInterruptEnable on) s = .next { s with mgmt := { s.mgmt with ibi := on } }) ∧
    (s.alertLow = true → exec .alertResponseAddressRead s =
      .next (s.emit (.reply 10 0x0C [BitVec.ofNat 8 (s.fld Reg.mbxLink 0 7)]))) ∧
    (s.alertLow = false → exec .alertResponseAddressRead s = .next s) ∧ exec .smbusTimeout s = .next s) ∧
  (∀ (s : State) (i3c : Bool) (inst : Nat), s.mailbox = true → s.eid ≠ 0 →
    let answer := fun (t : State) (c cc : Nat) (d : List Byte) =>
      (Host.Outcome.next (t.emit (.reply (mbxPort i3c) c (leBytes 1 inst ++ leBytes 1 cc ++ d))) : Answer)
    exec (.getStatus i3c s.eid inst 0) s = answer s 1 0
      (leBytes 1 (s.fld Reg.secStatus 0 4) ++ leBytes 1 (s.fld Reg.ras 0 5) ++ leBytes 4 (s.reg Reg.gctlId).toNat ++
        leBytes 1 (s.fld Reg.clkStatus 0 4) ++ leBytes 4 (s.reg Reg.alerts).toNat ++
        (List.range 8).map (fun p => BitVec.ofNat 8 (s.pstate p))) ∧
    exec (.getSensors i3c s.eid inst 0) s = answer s 2 0 s.sensorBlock ∧ s.sensorBlock.length = 48 ∧
    (8 ≤ inst → exec (.getErrors i3c s.eid inst 0) s = answer s 3 2 []) ∧
    (inst < 8 → ∃ d : List Byte, exec (.getErrors i3c s.eid inst 0) s = answer s 3 0 d ∧ d.length = 18 ∧
      num d 0 4 = (s.reg (Reg.memCe inst)).toNat ∧ num d 4 4 = (s.reg (Reg.memUe inst)).toNat ∧
      num d 8 4 = (s.reg (Reg.partEvents inst)).toNat ∧
      ∀ j, j < 3 → num d (12 + j) 1 = s.fld (Reg.arrayStatus (3 * inst + j)) 0 4 ∧ num d (15 + j) 1 = s.faultyBits (3 * inst + j)) ∧
    exec (.getThresholds i3c s.eid inst 0) s = answer s 4 0
      (leBytes 4 (s.reg Reg.mbxTherm).toNat ++ leBytes 4 (s.reg Reg.mbxLimit).toNat) ∧
    (∀ mask, let u := s.setReg Reg.alerts (s.reg Reg.alerts &&& ~~~mask)
      exec (.clearAlert i3c s.eid inst 4 mask) s = answer u 6 0 (leBytes 4 (s.reg Reg.alerts &&& ~~~mask).toNat)) ∧
    (∀ len, len ≠ 0 → exec (.getStatus i3c s.eid inst len) s = answer s 1 3 [] ∧
      exec (.getThresholds i3c s.eid inst len) s = answer s 4 3 []) ∧
    (∀ len th pw, len ≠ 8 → exec (.setThresholds i3c s.eid inst len th pw) s = answer s 5 3 []))
end

