-- ==== Sys2Proof/Laws/State.lean ====
section
/-!
SUPPORT. What each named update of State leaves in every field it does not write, one lemma per field, so that no proof unfolds a
record update.
-/
namespace Sys2Proof.Machine

variable (s : State)

@[simp] theorem State.setReg_pending (k : Nat) (v : Word) : (s.setReg k v).pending = s.pending := rfl
@[simp] theorem State.setReg_free (k : Nat) (v : Word) : (s.setReg k v).free = s.free := rfl
@[simp] theorem State.setReg_out (k : Nat) (v : Word) : (s.setReg k v).out = s.out := rfl
@[simp] theorem State.setReg_host (k : Nat) (v : Word) : (s.setReg k v).host = s.host := rfl
@[simp] theorem State.setReg_clk (k : Nat) (v : Word) : (s.setReg k v).clk = s.clk := rfl
@[simp] theorem State.setReg_fuses (k : Nat) (v : Word) : (s.setReg k v).fuses = s.fuses := rfl
@[simp] theorem State.setReg_boot (k : Nat) (v : Word) : (s.setReg k v).boot = s.boot := rfl
@[simp] theorem State.setReg_fe (k : Nat) (v : Word) : (s.setReg k v).fe = s.fe := rfl
@[simp] theorem State.setReg_mem (k : Nat) (v : Word) : (s.setReg k v).mem = s.mem := rfl
@[simp] theorem State.setReg_parts (k : Nat) (v : Word) : (s.setReg k v).parts = s.parts := rfl
@[simp] theorem State.setReg_dtables (k : Nat) (v : Word) : (s.setReg k v).dtables = s.dtables := rfl
@[simp] theorem State.setReg_cores (k : Nat) (v : Word) : (s.setReg k v).cores = s.cores := rfl
@[simp] theorem State.setReg_ports (k : Nat) (v : Word) : (s.setReg k v).ports = s.ports := rfl
@[simp] theorem State.setReg_ras (k : Nat) (v : Word) : (s.setReg k v).ras = s.ras := rfl
@[simp] theorem State.setReg_mgmt (k : Nat) (v : Word) : (s.setReg k v).mgmt = s.mgmt := rfl

@[simp] theorem State.setFld_pending (k lo w v : Nat) : (s.setFld k lo w v).pending = s.pending := rfl
@[simp] theorem State.setFld_free (k lo w v : Nat) : (s.setFld k lo w v).free = s.free := rfl
@[simp] theorem State.setFld_out (k lo w v : Nat) : (s.setFld k lo w v).out = s.out := rfl
@[simp] theorem State.setFld_host (k lo w v : Nat) : (s.setFld k lo w v).host = s.host := rfl
@[simp] theorem State.setFld_clk (k lo w v : Nat) : (s.setFld k lo w v).clk = s.clk := rfl
@[simp] theorem State.setFld_fuses (k lo w v : Nat) : (s.setFld k lo w v).fuses = s.fuses := rfl
@[simp] theorem State.setFld_boot (k lo w v : Nat) : (s.setFld k lo w v).boot = s.boot := rfl
@[simp] theorem State.setFld_fe (k lo w v : Nat) : (s.setFld k lo w v).fe = s.fe := rfl
@[simp] theorem State.setFld_mem (k lo w v : Nat) : (s.setFld k lo w v).mem = s.mem := rfl
@[simp] theorem State.setFld_parts (k lo w v : Nat) : (s.setFld k lo w v).parts = s.parts := rfl
@[simp] theorem State.setFld_dtables (k lo w v : Nat) : (s.setFld k lo w v).dtables = s.dtables := rfl
@[simp] theorem State.setFld_cores (k lo w v : Nat) : (s.setFld k lo w v).cores = s.cores := rfl
@[simp] theorem State.setFld_ports (k lo w v : Nat) : (s.setFld k lo w v).ports = s.ports := rfl
@[simp] theorem State.setFld_ras (k lo w v : Nat) : (s.setFld k lo w v).ras = s.ras := rfl
@[simp] theorem State.setFld_mgmt (k lo w v : Nat) : (s.setFld k lo w v).mgmt = s.mgmt := rfl

@[simp] theorem State.bump_pending (k lo w n : Nat) : (s.bump k lo w n).pending = s.pending := rfl
@[simp] theorem State.bump_free (k lo w n : Nat) : (s.bump k lo w n).free = s.free := rfl
@[simp] theorem State.bump_out (k lo w n : Nat) : (s.bump k lo w n).out = s.out := rfl
@[simp] theorem State.bump_host (k lo w n : Nat) : (s.bump k lo w n).host = s.host := rfl
@[simp] theorem State.bump_clk (k lo w n : Nat) : (s.bump k lo w n).clk = s.clk := rfl
@[simp] theorem State.bump_fuses (k lo w n : Nat) : (s.bump k lo w n).fuses = s.fuses := rfl
@[simp] theorem State.bump_boot (k lo w n : Nat) : (s.bump k lo w n).boot = s.boot := rfl
@[simp] theorem State.bump_fe (k lo w n : Nat) : (s.bump k lo w n).fe = s.fe := rfl
@[simp] theorem State.bump_mem (k lo w n : Nat) : (s.bump k lo w n).mem = s.mem := rfl
@[simp] theorem State.bump_parts (k lo w n : Nat) : (s.bump k lo w n).parts = s.parts := rfl
@[simp] theorem State.bump_dtables (k lo w n : Nat) : (s.bump k lo w n).dtables = s.dtables := rfl
@[simp] theorem State.bump_cores (k lo w n : Nat) : (s.bump k lo w n).cores = s.cores := rfl
@[simp] theorem State.bump_ports (k lo w n : Nat) : (s.bump k lo w n).ports = s.ports := rfl
@[simp] theorem State.bump_ras (k lo w n : Nat) : (s.bump k lo w n).ras = s.ras := rfl
@[simp] theorem State.bump_mgmt (k lo w n : Nat) : (s.bump k lo w n).mgmt = s.mgmt := rfl

@[simp] theorem State.setReg64_pending (lo hi v : Nat) : (s.setReg64 lo hi v).pending = s.pending := rfl
@[simp] theorem State.setReg64_free (lo hi v : Nat) : (s.setReg64 lo hi v).free = s.free := rfl
@[simp] theorem State.setReg64_out (lo hi v : Nat) : (s.setReg64 lo hi v).out = s.out := rfl
@[simp] theorem State.setReg64_host (lo hi v : Nat) : (s.setReg64 lo hi v).host = s.host := rfl
@[simp] theorem State.setReg64_clk (lo hi v : Nat) : (s.setReg64 lo hi v).clk = s.clk := rfl
@[simp] theorem State.setReg64_fuses (lo hi v : Nat) : (s.setReg64 lo hi v).fuses = s.fuses := rfl
@[simp] theorem State.setReg64_boot (lo hi v : Nat) : (s.setReg64 lo hi v).boot = s.boot := rfl
@[simp] theorem State.setReg64_fe (lo hi v : Nat) : (s.setReg64 lo hi v).fe = s.fe := rfl
@[simp] theorem State.setReg64_mem (lo hi v : Nat) : (s.setReg64 lo hi v).mem = s.mem := rfl
@[simp] theorem State.setReg64_parts (lo hi v : Nat) : (s.setReg64 lo hi v).parts = s.parts := rfl
@[simp] theorem State.setReg64_dtables (lo hi v : Nat) : (s.setReg64 lo hi v).dtables = s.dtables := rfl
@[simp] theorem State.setReg64_cores (lo hi v : Nat) : (s.setReg64 lo hi v).cores = s.cores := rfl
@[simp] theorem State.setReg64_ports (lo hi v : Nat) : (s.setReg64 lo hi v).ports = s.ports := rfl
@[simp] theorem State.setReg64_ras (lo hi v : Nat) : (s.setReg64 lo hi v).ras = s.ras := rfl
@[simp] theorem State.setReg64_mgmt (lo hi v : Nat) : (s.setReg64 lo hi v).mgmt = s.mgmt := rfl

@[simp] theorem State.clearRegs_pending (a n : Nat) : (s.clearRegs a n).pending = s.pending := rfl
@[simp] theorem State.clearRegs_free (a n : Nat) : (s.clearRegs a n).free = s.free := rfl
@[simp] theorem State.clearRegs_out (a n : Nat) : (s.clearRegs a n).out = s.out := rfl
@[simp] theorem State.clearRegs_host (a n : Nat) : (s.clearRegs a n).host = s.host := rfl
@[simp] theorem State.clearRegs_clk (a n : Nat) : (s.clearRegs a n).clk = s.clk := rfl
@[simp] theorem State.clearRegs_fuses (a n : Nat) : (s.clearRegs a n).fuses = s.fuses := rfl
@[simp] theorem State.clearRegs_boot (a n : Nat) : (s.clearRegs a n).boot = s.boot := rfl
@[simp] theorem State.clearRegs_fe (a n : Nat) : (s.clearRegs a n).fe = s.fe := rfl
@[simp] theorem State.clearRegs_mem (a n : Nat) : (s.clearRegs a n).mem = s.mem := rfl
@[simp] theorem State.clearRegs_parts (a n : Nat) : (s.clearRegs a n).parts = s.parts := rfl
@[simp] theorem State.clearRegs_dtables (a n : Nat) : (s.clearRegs a n).dtables = s.dtables := rfl
@[simp] theorem State.clearRegs_cores (a n : Nat) : (s.clearRegs a n).cores = s.cores := rfl
@[simp] theorem State.clearRegs_ports (a n : Nat) : (s.clearRegs a n).ports = s.ports := rfl
@[simp] theorem State.clearRegs_ras (a n : Nat) : (s.clearRegs a n).ras = s.ras := rfl
@[simp] theorem State.clearRegs_mgmt (a n : Nat) : (s.clearRegs a n).mgmt = s.mgmt := rfl

@[simp] theorem State.updPart_pending (p : Nat) (f : Part → Part) : (s.updPart p f).pending = s.pending := rfl
@[simp] theorem State.updPart_free (p : Nat) (f : Part → Part) : (s.updPart p f).free = s.free := rfl
@[simp] theorem State.updPart_out (p : Nat) (f : Part → Part) : (s.updPart p f).out = s.out := rfl
@[simp] theorem State.updPart_host (p : Nat) (f : Part → Part) : (s.updPart p f).host = s.host := rfl
@[simp] theorem State.updPart_clk (p : Nat) (f : Part → Part) : (s.updPart p f).clk = s.clk := rfl
@[simp] theorem State.updPart_fuses (p : Nat) (f : Part → Part) : (s.updPart p f).fuses = s.fuses := rfl
@[simp] theorem State.updPart_boot (p : Nat) (f : Part → Part) : (s.updPart p f).boot = s.boot := rfl
@[simp] theorem State.updPart_regs (p : Nat) (f : Part → Part) : (s.updPart p f).regs = s.regs := rfl
@[simp] theorem State.updPart_fe (p : Nat) (f : Part → Part) : (s.updPart p f).fe = s.fe := rfl
@[simp] theorem State.updPart_mem (p : Nat) (f : Part → Part) : (s.updPart p f).mem = s.mem := rfl
@[simp] theorem State.updPart_dtables (p : Nat) (f : Part → Part) : (s.updPart p f).dtables = s.dtables := rfl
@[simp] theorem State.updPart_cores (p : Nat) (f : Part → Part) : (s.updPart p f).cores = s.cores := rfl
@[simp] theorem State.updPart_ports (p : Nat) (f : Part → Part) : (s.updPart p f).ports = s.ports := rfl
@[simp] theorem State.updPart_ras (p : Nat) (f : Part → Part) : (s.updPart p f).ras = s.ras := rfl
@[simp] theorem State.updPart_mgmt (p : Nat) (f : Part → Part) : (s.updPart p f).mgmt = s.mgmt := rfl

@[simp] theorem State.updCore_pending (c : Nat) (f : CoreSt → CoreSt) : (s.updCore c f).pending = s.pending := rfl
@[simp] theorem State.updCore_free (c : Nat) (f : CoreSt → CoreSt) : (s.updCore c f).free = s.free := rfl
@[simp] theorem State.updCore_out (c : Nat) (f : CoreSt → CoreSt) : (s.updCore c f).out = s.out := rfl
@[simp] theorem State.updCore_host (c : Nat) (f : CoreSt → CoreSt) : (s.updCore c f).host = s.host := rfl
@[simp] theorem State.updCore_clk (c : Nat) (f : CoreSt → CoreSt) : (s.updCore c f).clk = s.clk := rfl
@[simp] theorem State.updCore_fuses (c : Nat) (f : CoreSt → CoreSt) : (s.updCore c f).fuses = s.fuses := rfl
@[simp] theorem State.updCore_boot (c : Nat) (f : CoreSt → CoreSt) : (s.updCore c f).boot = s.boot := rfl
@[simp] theorem State.updCore_regs (c : Nat) (f : CoreSt → CoreSt) : (s.updCore c f).regs = s.regs := rfl
@[simp] theorem State.updCore_fe (c : Nat) (f : CoreSt → CoreSt) : (s.updCore c f).fe = s.fe := rfl
@[simp] theorem State.updCore_mem (c : Nat) (f : CoreSt → CoreSt) : (s.updCore c f).mem = s.mem := rfl
@[simp] theorem State.updCore_parts (c : Nat) (f : CoreSt → CoreSt) : (s.updCore c f).parts = s.parts := rfl
@[simp] theorem State.updCore_dtables (c : Nat) (f : CoreSt → CoreSt) : (s.updCore c f).dtables = s.dtables := rfl
@[simp] theorem State.updCore_ports (c : Nat) (f : CoreSt → CoreSt) : (s.updCore c f).ports = s.ports := rfl
@[simp] theorem State.updCore_ras (c : Nat) (f : CoreSt → CoreSt) : (s.updCore c f).ras = s.ras := rfl
@[simp] theorem State.updCore_mgmt (c : Nat) (f : CoreSt → CoreSt) : (s.updCore c f).mgmt = s.mgmt := rfl

@[simp] theorem State.updPort_pending (n : Nat) (f : Port → Port) : (s.updPort n f).pending = s.pending := rfl
@[simp] theorem State.updPort_free (n : Nat) (f : Port → Port) : (s.updPort n f).free = s.free := rfl
@[simp] theorem State.updPort_out (n : Nat) (f : Port → Port) : (s.updPort n f).out = s.out := rfl
@[simp] theorem State.updPort_host (n : Nat) (f : Port → Port) : (s.updPort n f).host = s.host := rfl
@[simp] theorem State.updPort_clk (n : Nat) (f : Port → Port) : (s.updPort n f).clk = s.clk := rfl
@[simp] theorem State.updPort_fuses (n : Nat) (f : Port → Port) : (s.updPort n f).fuses = s.fuses := rfl
@[simp] theorem State.updPort_boot (n : Nat) (f : Port → Port) : (s.updPort n f).boot = s.boot := rfl
@[simp] theorem State.updPort_regs (n : Nat) (f : Port → Port) : (s.updPort n f).regs = s.regs := rfl
@[simp] theorem State.updPort_fe (n : Nat) (f : Port → Port) : (s.updPort n f).fe = s.fe := rfl
@[simp] theorem State.updPort_mem (n : Nat) (f : Port → Port) : (s.updPort n f).mem = s.mem := rfl
@[simp] theorem State.updPort_parts (n : Nat) (f : Port → Port) : (s.updPort n f).parts = s.parts := rfl
@[simp] theorem State.updPort_dtables (n : Nat) (f : Port → Port) : (s.updPort n f).dtables = s.dtables := rfl
@[simp] theorem State.updPort_cores (n : Nat) (f : Port → Port) : (s.updPort n f).cores = s.cores := rfl
@[simp] theorem State.updPort_ras (n : Nat) (f : Port → Port) : (s.updPort n f).ras = s.ras := rfl
@[simp] theorem State.updPort_mgmt (n : Nat) (f : Port → Port) : (s.updPort n f).mgmt = s.mgmt := rfl

@[simp] theorem State.updDtab_pending (i : Nat) (f : DTable → DTable) : (s.updDtab i f).pending = s.pending := rfl
@[simp] theorem State.updDtab_free (i : Nat) (f : DTable → DTable) : (s.updDtab i f).free = s.free := rfl
@[simp] theorem State.updDtab_out (i : Nat) (f : DTable → DTable) : (s.updDtab i f).out = s.out := rfl
@[simp] theorem State.updDtab_host (i : Nat) (f : DTable → DTable) : (s.updDtab i f).host = s.host := rfl
@[simp] theorem State.updDtab_clk (i : Nat) (f : DTable → DTable) : (s.updDtab i f).clk = s.clk := rfl
@[simp] theorem State.updDtab_fuses (i : Nat) (f : DTable → DTable) : (s.updDtab i f).fuses = s.fuses := rfl
@[simp] theorem State.updDtab_boot (i : Nat) (f : DTable → DTable) : (s.updDtab i f).boot = s.boot := rfl
@[simp] theorem State.updDtab_regs (i : Nat) (f : DTable → DTable) : (s.updDtab i f).regs = s.regs := rfl
@[simp] theorem State.updDtab_fe (i : Nat) (f : DTable → DTable) : (s.updDtab i f).fe = s.fe := rfl
@[simp] theorem State.updDtab_mem (i : Nat) (f : DTable → DTable) : (s.updDtab i f).mem = s.mem := rfl
@[simp] theorem State.updDtab_parts (i : Nat) (f : DTable → DTable) : (s.updDtab i f).parts = s.parts := rfl
@[simp] theorem State.updDtab_cores (i : Nat) (f : DTable → DTable) : (s.updDtab i f).cores = s.cores := rfl
@[simp] theorem State.updDtab_ports (i : Nat) (f : DTable → DTable) : (s.updDtab i f).ports = s.ports := rfl
@[simp] theorem State.updDtab_ras (i : Nat) (f : DTable → DTable) : (s.updDtab i f).ras = s.ras := rfl
@[simp] theorem State.updDtab_mgmt (i : Nat) (f : DTable → DTable) : (s.updDtab i f).mgmt = s.mgmt := rfl

@[simp] theorem State.updSq_pending (q : Nat) (f : SqCtx → SqCtx) : (s.updSq q f).pending = s.pending := rfl
@[simp] theorem State.updSq_free (q : Nat) (f : SqCtx → SqCtx) : (s.updSq q f).free = s.free := rfl
@[simp] theorem State.updSq_out (q : Nat) (f : SqCtx → SqCtx) : (s.updSq q f).out = s.out := rfl
@[simp] theorem State.updSq_host (q : Nat) (f : SqCtx → SqCtx) : (s.updSq q f).host = s.host := rfl
@[simp] theorem State.updSq_clk (q : Nat) (f : SqCtx → SqCtx) : (s.updSq q f).clk = s.clk := rfl
@[simp] theorem State.updSq_fuses (q : Nat) (f : SqCtx → SqCtx) : (s.updSq q f).fuses = s.fuses := rfl
@[simp] theorem State.updSq_boot (q : Nat) (f : SqCtx → SqCtx) : (s.updSq q f).boot = s.boot := rfl
@[simp] theorem State.updSq_regs (q : Nat) (f : SqCtx → SqCtx) : (s.updSq q f).regs = s.regs := rfl
@[simp] theorem State.updSq_mem (q : Nat) (f : SqCtx → SqCtx) : (s.updSq q f).mem = s.mem := rfl
@[simp] theorem State.updSq_parts (q : Nat) (f : SqCtx → SqCtx) : (s.updSq q f).parts = s.parts := rfl
@[simp] theorem State.updSq_dtables (q : Nat) (f : SqCtx → SqCtx) : (s.updSq q f).dtables = s.dtables := rfl
@[simp] theorem State.updSq_cores (q : Nat) (f : SqCtx → SqCtx) : (s.updSq q f).cores = s.cores := rfl
@[simp] theorem State.updSq_ports (q : Nat) (f : SqCtx → SqCtx) : (s.updSq q f).ports = s.ports := rfl
@[simp] theorem State.updSq_ras (q : Nat) (f : SqCtx → SqCtx) : (s.updSq q f).ras = s.ras := rfl
@[simp] theorem State.updSq_mgmt (q : Nat) (f : SqCtx → SqCtx) : (s.updSq q f).mgmt = s.mgmt := rfl

@[simp] theorem State.updCq_pending (q : Nat) (f : CqCtx → CqCtx) : (s.updCq q f).pending = s.pending := rfl
@[simp] theorem State.updCq_free (q : Nat) (f : CqCtx → CqCtx) : (s.updCq q f).free = s.free := rfl
@[simp] theorem State.updCq_out (q : Nat) (f : CqCtx → CqCtx) : (s.updCq q f).out = s.out := rfl
@[simp] theorem State.updCq_host (q : Nat) (f : CqCtx → CqCtx) : (s.updCq q f).host = s.host := rfl
@[simp] theorem State.updCq_clk (q : Nat) (f : CqCtx → CqCtx) : (s.updCq q f).clk = s.clk := rfl
@[simp] theorem State.updCq_fuses (q : Nat) (f : CqCtx → CqCtx) : (s.updCq q f).fuses = s.fuses := rfl
@[simp] theorem State.updCq_boot (q : Nat) (f : CqCtx → CqCtx) : (s.updCq q f).boot = s.boot := rfl
@[simp] theorem State.updCq_regs (q : Nat) (f : CqCtx → CqCtx) : (s.updCq q f).regs = s.regs := rfl
@[simp] theorem State.updCq_mem (q : Nat) (f : CqCtx → CqCtx) : (s.updCq q f).mem = s.mem := rfl
@[simp] theorem State.updCq_parts (q : Nat) (f : CqCtx → CqCtx) : (s.updCq q f).parts = s.parts := rfl
@[simp] theorem State.updCq_dtables (q : Nat) (f : CqCtx → CqCtx) : (s.updCq q f).dtables = s.dtables := rfl
@[simp] theorem State.updCq_cores (q : Nat) (f : CqCtx → CqCtx) : (s.updCq q f).cores = s.cores := rfl
@[simp] theorem State.updCq_ports (q : Nat) (f : CqCtx → CqCtx) : (s.updCq q f).ports = s.ports := rfl
@[simp] theorem State.updCq_ras (q : Nat) (f : CqCtx → CqCtx) : (s.updCq q f).ras = s.ras := rfl
@[simp] theorem State.updCq_mgmt (q : Nat) (f : CqCtx → CqCtx) : (s.updCq q f).mgmt = s.mgmt := rfl

@[simp] theorem State.updCmd_pending (id : Nat) (f : Cmd → Cmd) : (s.updCmd id f).pending = s.pending := rfl
@[simp] theorem State.updCmd_free (id : Nat) (f : Cmd → Cmd) : (s.updCmd id f).free = s.free := rfl
@[simp] theorem State.updCmd_out (id : Nat) (f : Cmd → Cmd) : (s.updCmd id f).out = s.out := rfl
@[simp] theorem State.updCmd_host (id : Nat) (f : Cmd → Cmd) : (s.updCmd id f).host = s.host := rfl
@[simp] theorem State.updCmd_clk (id : Nat) (f : Cmd → Cmd) : (s.updCmd id f).clk = s.clk := rfl
@[simp] theorem State.updCmd_fuses (id : Nat) (f : Cmd → Cmd) : (s.updCmd id f).fuses = s.fuses := rfl
@[simp] theorem State.updCmd_boot (id : Nat) (f : Cmd → Cmd) : (s.updCmd id f).boot = s.boot := rfl
@[simp] theorem State.updCmd_regs (id : Nat) (f : Cmd → Cmd) : (s.updCmd id f).regs = s.regs := rfl
@[simp] theorem State.updCmd_mem (id : Nat) (f : Cmd → Cmd) : (s.updCmd id f).mem = s.mem := rfl
@[simp] theorem State.updCmd_parts (id : Nat) (f : Cmd → Cmd) : (s.updCmd id f).parts = s.parts := rfl
@[simp] theorem State.updCmd_dtables (id : Nat) (f : Cmd → Cmd) : (s.updCmd id f).dtables = s.dtables := rfl
@[simp] theorem State.updCmd_cores (id : Nat) (f : Cmd → Cmd) : (s.updCmd id f).cores = s.cores := rfl
@[simp] theorem State.updCmd_ports (id : Nat) (f : Cmd → Cmd) : (s.updCmd id f).ports = s.ports := rfl
@[simp] theorem State.updCmd_ras (id : Nat) (f : Cmd → Cmd) : (s.updCmd id f).ras = s.ras := rfl
@[simp] theorem State.updCmd_mgmt (id : Nat) (f : Cmd → Cmd) : (s.updCmd id f).mgmt = s.mgmt := rfl

@[simp] theorem State.atTime_pending (t : Nat) : (s.atTime t).pending = s.pending := rfl
@[simp] theorem State.atTime_free (t : Nat) : (s.atTime t).free = s.free := rfl
@[simp] theorem State.atTime_out (t : Nat) : (s.atTime t).out = s.out := rfl
@[simp] theorem State.atTime_host (t : Nat) : (s.atTime t).host = s.host := rfl
@[simp] theorem State.atTime_fuses (t : Nat) : (s.atTime t).fuses = s.fuses := rfl
@[simp] theorem State.atTime_boot (t : Nat) : (s.atTime t).boot = s.boot := rfl
@[simp] theorem State.atTime_regs (t : Nat) : (s.atTime t).regs = s.regs := rfl
@[simp] theorem State.atTime_fe (t : Nat) : (s.atTime t).fe = s.fe := rfl
@[simp] theorem State.atTime_mem (t : Nat) : (s.atTime t).mem = s.mem := rfl
@[simp] theorem State.atTime_parts (t : Nat) : (s.atTime t).parts = s.parts := rfl
@[simp] theorem State.atTime_dtables (t : Nat) : (s.atTime t).dtables = s.dtables := rfl
@[simp] theorem State.atTime_cores (t : Nat) : (s.atTime t).cores = s.cores := rfl
@[simp] theorem State.atTime_ports (t : Nat) : (s.atTime t).ports = s.ports := rfl
@[simp] theorem State.atTime_ras (t : Nat) : (s.atTime t).ras = s.ras := rfl
@[simp] theorem State.atTime_mgmt (t : Nat) : (s.atTime t).mgmt = s.mgmt := rfl

@[simp] theorem State.draw_pending : (s.draw).pending = s.pending := rfl
@[simp] theorem State.draw_out : (s.draw).out = s.out := rfl
@[simp] theorem State.draw_host : (s.draw).host = s.host := rfl
@[simp] theorem State.draw_clk : (s.draw).clk = s.clk := rfl
@[simp] theorem State.draw_fuses : (s.draw).fuses = s.fuses := rfl
@[simp] theorem State.draw_boot : (s.draw).boot = s.boot := rfl
@[simp] theorem State.draw_regs : (s.draw).regs = s.regs := rfl
@[simp] theorem State.draw_fe : (s.draw).fe = s.fe := rfl
@[simp] theorem State.draw_mem : (s.draw).mem = s.mem := rfl
@[simp] theorem State.draw_parts : (s.draw).parts = s.parts := rfl
@[simp] theorem State.draw_dtables : (s.draw).dtables = s.dtables := rfl
@[simp] theorem State.draw_cores : (s.draw).cores = s.cores := rfl
@[simp] theorem State.draw_ports : (s.draw).ports = s.ports := rfl
@[simp] theorem State.draw_ras : (s.draw).ras = s.ras := rfl
@[simp] theorem State.draw_mgmt : (s.draw).mgmt = s.mgmt := rfl

@[simp] theorem State.emit_pending (o : Out) : (s.emit o).pending = s.pending := rfl
@[simp] theorem State.emit_free (o : Out) : (s.emit o).free = s.free := rfl
@[simp] theorem State.emit_host (o : Out) : (s.emit o).host = s.host := rfl
@[simp] theorem State.emit_clk (o : Out) : (s.emit o).clk = s.clk := rfl
@[simp] theorem State.emit_fuses (o : Out) : (s.emit o).fuses = s.fuses := rfl
@[simp] theorem State.emit_boot (o : Out) : (s.emit o).boot = s.boot := rfl
@[simp] theorem State.emit_regs (o : Out) : (s.emit o).regs = s.regs := rfl
@[simp] theorem State.emit_fe (o : Out) : (s.emit o).fe = s.fe := rfl
@[simp] theorem State.emit_mem (o : Out) : (s.emit o).mem = s.mem := rfl
@[simp] theorem State.emit_parts (o : Out) : (s.emit o).parts = s.parts := rfl
@[simp] theorem State.emit_dtables (o : Out) : (s.emit o).dtables = s.dtables := rfl
@[simp] theorem State.emit_cores (o : Out) : (s.emit o).cores = s.cores := rfl
@[simp] theorem State.emit_ports (o : Out) : (s.emit o).ports = s.ports := rfl
@[simp] theorem State.emit_ras (o : Out) : (s.emit o).ras = s.ras := rfl
@[simp] theorem State.emit_mgmt (o : Out) : (s.emit o).mgmt = s.mgmt := rfl

@[simp] theorem State.setFence_pending (k : Nat) (v : BitVec 64) : (s.setFence k v).pending = s.pending := rfl
@[simp] theorem State.setFence_free (k : Nat) (v : BitVec 64) : (s.setFence k v).free = s.free := rfl
@[simp] theorem State.setFence_out (k : Nat) (v : BitVec 64) : (s.setFence k v).out = s.out := rfl
@[simp] theorem State.setFence_host (k : Nat) (v : BitVec 64) : (s.setFence k v).host = s.host := rfl
@[simp] theorem State.setFence_clk (k : Nat) (v : BitVec 64) : (s.setFence k v).clk = s.clk := rfl
@[simp] theorem State.setFence_fuses (k : Nat) (v : BitVec 64) : (s.setFence k v).fuses = s.fuses := rfl
@[simp] theorem State.setFence_boot (k : Nat) (v : BitVec 64) : (s.setFence k v).boot = s.boot := rfl
@[simp] theorem State.setFence_regs (k : Nat) (v : BitVec 64) : (s.setFence k v).regs = s.regs := rfl
@[simp] theorem State.setFence_parts (k : Nat) (v : BitVec 64) : (s.setFence k v).parts = s.parts := rfl
@[simp] theorem State.setFence_dtables (k : Nat) (v : BitVec 64) : (s.setFence k v).dtables = s.dtables := rfl
@[simp] theorem State.setFence_cores (k : Nat) (v : BitVec 64) : (s.setFence k v).cores = s.cores := rfl
@[simp] theorem State.setFence_ports (k : Nat) (v : BitVec 64) : (s.setFence k v).ports = s.ports := rfl
@[simp] theorem State.setFence_ras (k : Nat) (v : BitVec 64) : (s.setFence k v).ras = s.ras := rfl
@[simp] theorem State.setFence_mgmt (k : Nat) (v : BitVec 64) : (s.setFence k v).mgmt = s.mgmt := rfl

end Sys2Proof.Machine
end

