-- ==== Sys2Proof/Laws/Table.lean ====
section
/-!
SUPPORT. The laws of the sparse table: a read after a write, the canonical form under every operation, and equal contents as
equal lists.
-/
namespace Sys2Proof

variable {α : Type}

/-! ## Reads -/

theorem Tbl.get_erase_self (d : Nat → α) (t : Tbl α) (k : Nat) : (t.erase k).get d k = d k := by
  induction t with
  | nil => rfl
  | cons e t ih =>
    by_cases h : e.1 = k
    · simpa [Tbl.erase, h] using ih
    · simpa [Tbl.erase, Tbl.get, h] using ih

theorem Tbl.get_erase_ne (d : Nat → α) (t : Tbl α) {j k : Nat} (h : j ≠ k) : (t.erase k).get d j = t.get d j := by
  induction t with
  | nil => rfl
  | cons e t ih =>
    by_cases h1 : e.1 = k
    · have h2 : e.1 ≠ j := fun h2 => h (h2 ▸ h1)
      simpa [Tbl.erase, Tbl.get, h1, h.symm] using ih
    · simp only [Tbl.erase, List.filter_cons, h1, bne_iff_ne, ne_eq, not_false_eq_true, if_true, Tbl.get]
      simpa only [Tbl.erase] using congrArg (fun x => if e.1 = j then e.2 else x) ih

theorem Tbl.get_insert_self (d : Nat → α) (t : Tbl α) (k : Nat) (v : α) (h : ∀ e ∈ t, e.1 ≠ k) :
    (Tbl.insert k v t).get d k = v := by
  induction t with
  | nil => simp [Tbl.insert, Tbl.get]
  | cons e t ih =>
    have he := h e (List.mem_cons_self ..)
    by_cases h1 : k < e.1
    · simp [Tbl.insert, Tbl.get, h1]
    · simp only [Tbl.insert, h1, if_false, Tbl.get, he]
      exact ih (fun x hx => h x (List.mem_cons_of_mem _ hx))

theorem Tbl.get_insert_ne (d : Nat → α) (t : Tbl α) {j k : Nat} (v : α) (h : j ≠ k) :
    (Tbl.insert k v t).get d j = t.get d j := by
  induction t with
  | nil => simp [Tbl.insert, Tbl.get, h.symm]
  | cons e t ih =>
    by_cases h1 : k < e.1
    · simp [Tbl.insert, Tbl.get, h1, h.symm]
    · simp only [Tbl.insert, h1, if_false, Tbl.get, ih]

/-- A read of what was written. -/
@[simp] theorem Tbl.get_set_self [DecidableEq α] (d : Nat → α) (t : Tbl α) (k : Nat) (v : α) : (t.set d k v).get d k = v := by
  unfold Tbl.set
  split
  · next h => rw [Tbl.get_erase_self, h]
  · exact Tbl.get_insert_self d _ k v (fun e he => by simpa [Tbl.erase] using (List.mem_filter.1 he).2)

/-- A write leaves every other key alone. -/
theorem Tbl.get_set_ne [DecidableEq α] (d : Nat → α) (t : Tbl α) {j k : Nat} (v : α) (h : j ≠ k) :
    (t.set d k v).get d j = t.get d j := by
  unfold Tbl.set
  split
  · exact Tbl.get_erase_ne d t h
  · rw [Tbl.get_insert_ne d _ v h, Tbl.get_erase_ne d t h]

@[simp] theorem Tbl.get_upd_self [DecidableEq α] (d : Nat → α) (t : Tbl α) (k : Nat) (f : α → α) :
    (t.upd d k f).get d k = f (t.get d k) := Tbl.get_set_self ..

theorem Tbl.get_upd_ne [DecidableEq α] (d : Nat → α) (t : Tbl α) {j k : Nat} (f : α → α) (h : j ≠ k) :
    (t.upd d k f).get d j = t.get d j := Tbl.get_set_ne d t _ h

/-- A cleared key reads as its default, every other key as before. -/
theorem Tbl.get_clear (d : Nat → α) (t : Tbl α) (a n k : Nat) :
    (t.clear a n).get d k = if a ≤ k ∧ k < a + n then d k else t.get d k := by
  induction t with
  | nil => simp [Tbl.clear, Tbl.get]
  | cons e t ih =>
    unfold Tbl.clear at ih ⊢
    by_cases hin : e.1 < a ∨ a + n ≤ e.1
    · have hp : (decide (e.1 < a) || decide (a + n ≤ e.1)) = true := by simpa using hin
      rw [List.filter_cons_of_pos (by simpa using hp)]
      simp only [Tbl.get, ih]
      by_cases hk : e.1 = k
      · have : ¬ (a ≤ k ∧ k < a + n) := by omega
        simp [hk, this]
      · simp [hk]
    · have hp : ¬ ((decide (e.1 < a) || decide (a + n ≤ e.1)) = true) := by simpa using hin
      rw [List.filter_cons_of_neg (by simpa using hp), ih]
      simp only [Tbl.get]
      by_cases hk : e.1 = k
      · have : a ≤ k ∧ k < a + n := by omega
        simp [this]
      · simp [hk]

/-- A run of writes: the written keys read the values, every other key as before. -/
theorem Tbl.get_writeN [DecidableEq α] (d : Nat → α) (vs : List α) (t : Tbl α) (a k : Nat) :
    (Tbl.writeN d t a vs).get d k = if a ≤ k then (vs[k - a]?).getD (t.get d k) else t.get d k := by
  induction vs generalizing t a with
  | nil => simp [Tbl.writeN]
  | cons v vs ih =>
    rw [Tbl.writeN, ih]
    by_cases h : a ≤ k
    · by_cases h1 : a = k
      · subst h1
        have h2 : ¬ a + 1 ≤ a := by omega
        rw [if_neg h2]
        simp
      · have h2 : a + 1 ≤ k := by omega
        have h3 : k - a = (k - (a + 1)) + 1 := by omega
        rw [if_pos h2, if_pos h, h3, List.getElem?_cons_succ, Tbl.get_set_ne d t v (by omega)]
    · rw [if_neg (by omega), if_neg h, Tbl.get_set_ne d t v (by omega)]

/-! ## The canonical form -/

/-- Strictly rising keys as a statement about every later entry. -/
theorem Tbl.rising_iff (t : Tbl α) : t.rising = true ↔ t.Pairwise (fun e f => e.1 < f.1) := by
  induction t with
  | nil => simp [Tbl.rising]
  | cons e t ih =>
    cases t with
    | nil => simp [Tbl.rising]
    | cons f t =>
      simp only [Tbl.rising, Bool.and_eq_true, decide_eq_true_eq, ih, List.pairwise_cons]
      constructor
      · rintro ⟨h, hf, ht⟩
        refine ⟨fun x hx => ?_, hf, ht⟩
        rcases List.mem_cons.1 hx with rfl | hx
        · exact h
        · exact Nat.lt_trans h (hf x hx)
      · rintro ⟨he, hf, ht⟩
        exact ⟨he f (List.mem_cons_self ..), hf, ht⟩

theorem Tbl.wf_iff [DecidableEq α] (d : Nat → α) (t : Tbl α) :
    t.wf d = true ↔ t.Pairwise (fun e f => e.1 < f.1) ∧ ∀ e ∈ t, e.2 ≠ d e.1 := by
  simp [Tbl.wf, Tbl.rising_iff]

/-- Dropping entries keeps the form. -/
theorem Tbl.wf_filter [DecidableEq α] (d : Nat → α) (t : Tbl α) (p : Nat × α → Bool) (h : t.wf d = true) :
    Tbl.wf d (t.filter p) = true := by
  rw [Tbl.wf_iff] at h ⊢
  exact ⟨h.1.filter p, fun e he => h.2 e (List.mem_filter.1 he).1⟩

theorem Tbl.wf_erase [DecidableEq α] (d : Nat → α) (t : Tbl α) (k : Nat) (h : t.wf d = true) : (t.erase k).wf d = true :=
  Tbl.wf_filter d t _ h

theorem Tbl.wf_clear [DecidableEq α] (d : Nat → α) (t : Tbl α) (a n : Nat) (h : t.wf d = true) : (t.clear a n).wf d = true :=
  Tbl.wf_filter d t _ h

theorem Tbl.mem_insert (t : Tbl α) (k : Nat) (v : α) (e : Nat × α) : e ∈ Tbl.insert k v t ↔ e = (k, v) ∨ e ∈ t := by
  induction t with
  | nil => simp [Tbl.insert]
  | cons f t ih =>
    by_cases h : k < f.1
    · simp [Tbl.insert, h]
    · simp only [Tbl.insert, h, if_false, List.mem_cons, ih]
      exact or_left_comm

theorem Tbl.pairwise_insert (t : Tbl α) (k : Nat) (v : α) (hk : ∀ e ∈ t, e.1 ≠ k) (h : t.Pairwise (fun e f => e.1 < f.1)) :
    (Tbl.insert k v t).Pairwise (fun e f => e.1 < f.1) := by
  induction t with
  | nil => simp [Tbl.insert]
  | cons e t ih =>
    rw [List.pairwise_cons] at h
    by_cases h1 : k < e.1
    · simp only [Tbl.insert, h1, if_true, List.pairwise_cons]
      refine ⟨fun x hx => ?_, h.1, h.2⟩
      rcases List.mem_cons.1 hx with rfl | hx
      · exact h1
      · exact Nat.lt_trans h1 (h.1 x hx)
    · simp only [Tbl.insert, h1, if_false, List.pairwise_cons]
      refine ⟨fun x hx => ?_, ih (fun x hx => hk x (List.mem_cons_of_mem _ hx)) h.2⟩
      rcases (Tbl.mem_insert t k v x).1 hx with rfl | hx
      · have := hk e (List.mem_cons_self ..)
        show e.1 < k
        omega
      · exact h.1 x hx

/-- Every write keeps the form. -/
theorem Tbl.wf_set [DecidableEq α] (d : Nat → α) (t : Tbl α) (k : Nat) (v : α) (h : t.wf d = true) : (t.set d k v).wf d = true := by
  unfold Tbl.set
  split
  · exact Tbl.wf_erase d t k h
  · next hv =>
    have he := Tbl.wf_erase d t k h
    rw [Tbl.wf_iff] at he ⊢
    refine ⟨Tbl.pairwise_insert _ k v (fun e hm => by simpa [Tbl.erase] using (List.mem_filter.1 hm).2) he.1, fun e hm => ?_⟩
    rcases (Tbl.mem_insert _ k v e).1 hm with rfl | hm
    · exact hv
    · exact he.2 e hm

theorem Tbl.wf_upd [DecidableEq α] (d : Nat → α) (t : Tbl α) (k : Nat) (f : α → α) (h : t.wf d = true) : (t.upd d k f).wf d = true :=
  Tbl.wf_set d t k _ h

theorem Tbl.wf_writeN [DecidableEq α] (d : Nat → α) (vs : List α) (t : Tbl α) (a : Nat) (h : t.wf d = true) :
    (Tbl.writeN d t a vs).wf d = true := by
  induction vs generalizing t a with
  | nil => exact h
  | cons v vs ih => exact ih _ _ (Tbl.wf_set d t a v h)

/-- Two canonical tables that read the same are the same list. -/
theorem Tbl.ext [DecidableEq α] (d : Nat → α) (t u : Tbl α) (ht : t.wf d = true) (hu : u.wf d = true)
    (h : ∀ k, Tbl.get d t k = Tbl.get d u k) : t = u := by
  have miss : ∀ (t : Tbl α) (k : Nat), (∀ e ∈ t, e.1 ≠ k) → Tbl.get d t k = d k := by
    intro t k hk
    induction t with
    | nil => rfl
    | cons e t ih =>
      rw [Tbl.get, if_neg (hk e (List.mem_cons_self ..))]
      exact ih fun x hx => hk x (List.mem_cons_of_mem _ hx)
  induction t generalizing u with
  | nil =>
    cases u with
    | nil => rfl
    | cons f u =>
      rw [Tbl.wf_iff] at hu
      have := h f.1
      simp only [Tbl.get, if_true] at this
      exact absurd this.symm (hu.2 f (List.mem_cons_self ..))
  | cons e t ih =>
    cases u with
    | nil =>
      rw [Tbl.wf_iff] at ht
      have := h e.1
      simp only [Tbl.get, if_true] at this
      exact absurd this (ht.2 e (List.mem_cons_self ..))
    | cons f u =>
      rw [Tbl.wf_iff, List.pairwise_cons] at ht hu
      have hte : Tbl.get d t e.1 = d e.1 := miss t e.1 fun x hx => Nat.ne_of_gt (ht.1.1 x hx)
      have huf : Tbl.get d u f.1 = d f.1 := miss u f.1 fun x hx => Nat.ne_of_gt (hu.1.1 x hx)
      have hkey : e.1 = f.1 := by
        rcases Nat.lt_trichotomy e.1 f.1 with hlt | heq | hgt
        · have hm := miss (f :: u) e.1 fun x hx => by
            rcases List.mem_cons.1 hx with rfl | hx
            · omega
            · have := hu.1.1 x hx
              omega
          have := h e.1
          rw [hm] at this
          simp only [Tbl.get, if_true] at this
          exact absurd this (ht.2 e (List.mem_cons_self ..))
        · exact heq
        · have hm := miss (e :: t) f.1 fun x hx => by
            rcases List.mem_cons.1 hx with rfl | hx
            · omega
            · have := ht.1.1 x hx
              omega
          have := h f.1
          rw [hm] at this
          simp only [Tbl.get, if_true] at this
          exact absurd this.symm (hu.2 f (List.mem_cons_self ..))
      have hval : e.2 = f.2 := by
        have := h e.1
        simpa [Tbl.get, hkey] using this
      have htail : t = u := by
        refine ih u ((Tbl.wf_iff d t).2 ⟨ht.1.2, fun x hx => ht.2 x (List.mem_cons_of_mem _ hx)⟩)
          ((Tbl.wf_iff d u).2 ⟨hu.1.2, fun x hx => hu.2 x (List.mem_cons_of_mem _ hx)⟩) fun k => ?_
        by_cases hk : e.1 = k
        · rw [← hk, hte, hkey, huf]
        · have := h k
          simpa [Tbl.get, hk, hkey ▸ hk] using this
      rw [htail, Prod.ext hkey hval]

end Sys2Proof
end

