-- ==== Sys2Proof/Laws/Regs.lean ====
section
/-!
SUPPORT. Bit fields and registers: a field read after a write of it, of another field of the same register, and of another
register; what a generic register write leaves; and the canonical form of the register map.
-/
namespace Sys2Proof

/-! ## Bit fields -/

theorem setBits_eq (x lo w v : Nat) : setBits x lo w v = x % 2 ^ lo + 2 ^ lo * (v % 2 ^ w + 2 ^ w * (x / 2 ^ (lo + w))) := by
  unfold setBits
  rw [Nat.mul_add, Nat.pow_add, ← Nat.mul_assoc (2 ^ lo) (2 ^ w), Nat.mul_comm (2 ^ lo) (v % 2 ^ w),
    Nat.mul_comm (x / (2 ^ lo * 2 ^ w)), Nat.add_assoc]

/-- A field reads what was written, cut to its width. -/
theorem bits_setBits_same (x lo w v : Nat) : bits (setBits x lo w v) lo w = v % 2 ^ w := by
  unfold bits
  rw [setBits_eq, Nat.add_mul_div_left _ _ (Nat.two_pow_pos lo), Nat.div_eq_of_lt (Nat.mod_lt _ (Nat.two_pow_pos lo)),
    Nat.zero_add, Nat.add_mul_mod_self_left, Nat.mod_mod]

theorem bits_add_high (y d lo lo' w' : Nat) (h : lo' + w' ≤ lo) : bits (y + 2 ^ lo * d) lo' w' = bits y lo' w' := by
  obtain ⟨r, rfl⟩ := Nat.exists_eq_add_of_le h
  unfold bits
  rw [Nat.pow_add, Nat.pow_add, Nat.mul_assoc, Nat.mul_assoc, Nat.add_mul_div_left _ _ (Nat.two_pow_pos lo'),
    Nat.add_mul_mod_self_left]

/-- What stands above a written field is what stood there. -/
theorem setBits_div (x lo w v : Nat) : setBits x lo w v / 2 ^ (lo + w) = x / 2 ^ (lo + w) := by
  have h1 : x % 2 ^ lo < 2 ^ lo := Nat.mod_lt _ (Nat.two_pow_pos lo)
  have h2 : v % 2 ^ w + 1 ≤ 2 ^ w := Nat.mod_lt _ (Nat.two_pow_pos w)
  rw [setBits_eq, Nat.mul_add, ← Nat.mul_assoc, ← Nat.pow_add, ← Nat.add_assoc,
    Nat.add_mul_div_left _ _ (Nat.two_pow_pos _), Nat.div_eq_of_lt, Nat.zero_add]
  calc x % 2 ^ lo + 2 ^ lo * (v % 2 ^ w) < 2 ^ lo + 2 ^ lo * (v % 2 ^ w) := Nat.add_lt_add_right h1 _
    _ = 2 ^ lo * (v % 2 ^ w + 1) := by rw [Nat.mul_add, Nat.mul_one, Nat.add_comm]
    _ ≤ 2 ^ lo * 2 ^ w := Nat.mul_le_mul_left _ h2
    _ = 2 ^ (lo + w) := (Nat.pow_add ..).symm

/-- A field above the written one keeps its value. -/
theorem bits_setBits_above (x lo w v lo' w' : Nat) (h : lo + w ≤ lo') : bits (setBits x lo w v) lo' w' = bits x lo' w' := by
  obtain ⟨r, rfl⟩ := Nat.exists_eq_add_of_le h
  unfold bits
  rw [Nat.pow_add _ (lo + w) r, ← Nat.div_div_eq_div_mul, ← Nat.div_div_eq_div_mul, setBits_div]

/-- A field below the written one keeps its value. -/
theorem bits_setBits_below (x lo w v lo' w' : Nat) (h : lo' + w' ≤ lo) : bits (setBits x lo w v) lo' w' = bits x lo' w' := by
  rw [setBits_eq, bits_add_high _ _ _ _ _ h]
  conv => rhs; rw [← Nat.mod_add_div x (2 ^ lo)]
  rw [bits_add_high _ _ _ _ _ h]

theorem setBits_lt (x lo w v n : Nat) (hx : x < 2 ^ n) (h : lo + w ≤ n) : setBits x lo w v < 2 ^ n := by
  obtain ⟨r, rfl⟩ := Nat.exists_eq_add_of_le h
  refine (Nat.div_eq_zero_iff_lt (Nat.two_pow_pos _)).1 ?_
  rw [Nat.pow_add, ← Nat.div_div_eq_div_mul, setBits_div, Nat.div_div_eq_div_mul, ← Nat.pow_add, Nat.div_eq_of_lt hx]

end Sys2Proof

namespace Sys2Proof.Machine

variable (s : State)

/-! ## Registers -/

/-- A register read after a write. -/
theorem State.reg_setReg (k j : Nat) (v : Word) : (s.setReg k v).reg j = if j = k then v else s.reg j := by
  unfold State.reg State.setReg
  by_cases h : j = k
  · subst h
    simp
  · simp [h, Tbl.get_set_ne regReset s.regs v h]

@[simp] theorem State.reg_setReg_same (k : Nat) (v : Word) : (s.setReg k v).reg k = v := by rw [State.reg_setReg, if_pos rfl]

theorem State.reg_setReg_other {k j : Nat} (v : Word) (h : j ≠ k) : (s.setReg k v).reg j = s.reg j := by
  rw [State.reg_setReg, if_neg h]

/-- A register other than the one whose field is written. -/
theorem State.reg_setFld_other {k j : Nat} (lo w v : Nat) (h : j ≠ k) : (s.setFld k lo w v).reg j = s.reg j :=
  State.reg_setReg_other s _ h

theorem State.fld_setFld_other {k j : Nat} (lo w v lo' w' : Nat) (h : j ≠ k) : (s.setFld k lo w v).fld j lo' w' = s.fld j lo' w' := by
  unfold State.fld
  rw [State.reg_setFld_other s lo w v h]

theorem State.reg_setFld_toNat (k lo w v : Nat) (h : lo + w ≤ 32) :
    ((s.setFld k lo w v).reg k).toNat = setBits (s.reg k).toNat lo w v := by
  unfold State.setFld
  rw [State.reg_setReg_same, BitVec.toNat_ofNat, Nat.mod_eq_of_lt (setBits_lt _ lo w v 32 (BitVec.isLt _) h)]

/-- A field read after a write of it. -/
theorem State.fld_setFld_same (k lo w v : Nat) (h : lo + w ≤ 32) : (s.setFld k lo w v).fld k lo w = v % 2 ^ w := by
  unfold State.fld
  rw [State.reg_setFld_toNat s k lo w v h, bits_setBits_same]

/-- Another field of the same register. -/
theorem State.fld_setFld_disjoint (k lo w v lo' w' : Nat) (h : lo + w ≤ 32) (hd : lo + w ≤ lo' ∨ lo' + w' ≤ lo) :
    (s.setFld k lo w v).fld k lo' w' = s.fld k lo' w' := by
  unfold State.fld
  rw [State.reg_setFld_toNat s k lo w v h]
  rcases hd with hd | hd
  · exact bits_setBits_above _ lo w v lo' w' hd
  · exact bits_setBits_below _ lo w v lo' w' hd

/-- A counter after a count: saturated at all ones. -/
theorem State.fld_bump_same (k lo w n : Nat) (h : lo + w ≤ 32) : (s.bump k lo w n).fld k lo w = min (s.fld k lo w + n) (2 ^ w - 1) := by
  unfold State.bump satAdd
  rw [State.fld_setFld_same s k lo w _ h, Nat.mod_eq_of_lt]
  have := Nat.two_pow_pos w
  omega

theorem State.fld_bump_other {k j : Nat} (lo w n lo' w' : Nat) (h : j ≠ k) : (s.bump k lo w n).fld j lo' w' = s.fld j lo' w' :=
  State.fld_setFld_other s lo w _ lo' w' h

/-- What a generic write leaves in a bit of the RW mask, of the RW1C mask, and of neither (R10). -/
theorem regWrite_bit (old rw w1c v : Word) (i : Nat) :
    (regWrite old rw w1c v).getLsbD i =
      (((old.getLsbD i && !rw.getLsbD i) || (v.getLsbD i && rw.getLsbD i)) && !(v.getLsbD i && w1c.getLsbD i)) := by
  by_cases h : i < 32
  · simp [regWrite, h]
  · simp [regWrite, BitVec.getLsbD_of_ge _ _ (Nat.le_of_not_lt h)]

/-! ## The canonical form of the register map -/

theorem State.wf_setReg (k : Nat) (v : Word) (h : s.regs.wf regReset = true) : (s.setReg k v).regs.wf regReset = true :=
  Tbl.wf_set regReset s.regs k v h

theorem State.wf_setFld (k lo w v : Nat) (h : s.regs.wf regReset = true) : (s.setFld k lo w v).regs.wf regReset = true :=
  State.wf_setReg s k _ h

theorem State.wf_bump (k lo w n : Nat) (h : s.regs.wf regReset = true) : (s.bump k lo w n).regs.wf regReset = true :=
  State.wf_setFld s k lo w _ h

theorem State.wf_clearRegs (a n : Nat) (h : s.regs.wf regReset = true) : (s.clearRegs a n).regs.wf regReset = true :=
  Tbl.wf_clear regReset s.regs a n h

end Sys2Proof.Machine
end

