-- ==== Sys2Proof/Laws/Commands.lean ====
section
/-!
SUPPORT. One lemma for each shared operation: a register row, a command's event, a memory write (what it may change, and that
it keeps the canonical form), and what these leave of the commands in flight.
-/
namespace Sys2Proof.Machine

variable (s : State)

/-! ## Register rows -/

theorem regWriteRow_next {s : State} {fn off : Nat} (t : State) (h : Reachable s fn off) : regWriteRow s fn off t = .next t := by
  obtain ⟨h1, h2, h3, h4⟩ := h
  unfold regWriteRow
  rw [if_neg (by omega)]
  simp [h2, h3, h4, when]

theorem readRow_next {s : State} {fn off size : Nat} {own : Nat → Bool} (h : fn < 9) (hs : 0 < size) (hs' : size ≤ 8)
    (ho : off + size ≤ 2 ^ 26) (hr : s.reaches fn = true) (ht : (touched off size).any own = true) :
    readRow fn off size own s =
      .next ((s.barRead fn off size).1.emit (.readData fn off (s.barRead fn off size).2)) := by
  unfold readRow
  rw [if_neg (by omega)]
  simp [hr, ht]

theorem when_next {c : Bool} {s t : State} (h : c = true) : when c s t = .next t := by simp [when, h]

theorem State.onlyRegs_refl (ks : List Nat) : s.onlyRegs s ks := ⟨rfl, fun _ _ => rfl⟩
theorem State.onlyRegs_setReg (k : Nat) (v : Word) : s.onlyRegs (s.setReg k v) [k] :=
  ⟨rfl, fun _ h => State.reg_setReg_other s v (by simpa using h)⟩
theorem State.onlyRegs_setFld (k lo w v : Nat) : s.onlyRegs (s.setFld k lo w v) [k] := State.onlyRegs_setReg s _ _
theorem State.onlyRegs_trans {s t u : State} {ks : List Nat} (h : s.onlyRegs t ks) (h' : t.onlyRegs u ks) : s.onlyRegs u ks :=
  ⟨by rw [h'.1, h.1], fun k hk => by rw [h'.2 k hk, h.2 k hk]⟩
theorem State.onlyRegs_mono {s t : State} {ks ls : List Nat} (h : s.onlyRegs t ks) (hs : ∀ k ∈ ks, k ∈ ls) : s.onlyRegs t ls :=
  ⟨h.1, fun k hk => h.2 k (fun h' => hk (hs k h'))⟩

/-! ## One event of a command -/

theorem runCmd_of_runs {s : State} {id op : Nat} {c : Cmd} {ops : List Nat} {body : State → Cmd → Res} (h : Runs s id op c)
    (ho : op ∈ ops) : runCmd s id ops body = match body s c with
      | .done s' status detail dst => match s'.cmd? id with
        | some c' => s'.endRun c' status detail dst
        | none => s'
      | .more s' => s'.outerRuns id
      | .fetch a rs => (s.outerBegin c).sendReads c a (c.missing rs)
      | .fail s' e => match s'.cmd? id with
        | some c' => (s'.noteErr e c'.queue c'.seq.toNat).endRun c' e.status 0 none
        | none => s' := by
  obtain ⟨h1, h2, h3, h4, h5⟩ := h
  have h6 : (ops.contains c.op && s.canRun c) = true := by rw [h2, h3]; simpa using ho
  unfold runCmd
  simp only [h1, h6, h4, h5, if_true, if_false]
  rfl

theorem State.finish_eq_complete {c : Cmd} (status detail : Nat) (dst : Option Nat) (h : isProducer c.op = false) :
    s.finish c status detail dst = s.complete c status detail := by
  simp [State.finish, State.watchesOf, h]

/-- The end of a command behind which no earlier command of its engines has writes to make. -/
theorem State.endRun_eq_finish {c : Cmd} (status detail : Nat) (dst : Option Nat) (h : s.releaseHeld c = false) :
    s.endRun c status detail dst = s.finish c status detail dst := by
  simp [State.endRun, h]

/-- A command whose work is done, and whose release need not wait any more, ends with the result it kept (R238). -/
theorem runCmd_written {s : State} {id : Nat} {c : Cmd} {ops : List Nat} {body : State → Cmd → Res} (h : s.cmd? id = some c)
    (ho : ops.contains c.op = true) (hr : s.canRun c = true) (hw : c.phase = .written) :
    runCmd s id ops body = if s.releaseHeld c then s else s.finish c c.status c.detail c.dst := by
  unfold runCmd
  simp only [h, ho, hr, hw, Bool.and_self, if_true]

/-- A command of which a host read failed ends with 0x0310. -/
theorem runCmd_hostErr {s : State} {id : Nat} {c : Cmd} {ops : List Nat} {body : State → Cmd → Res} (h : s.cmd? id = some c)
    (ho : ops.contains c.op = true) (hr : s.canRun c = true) (hw : c.phase ≠ .written) (he : c.hostErr = true) :
    runCmd s id ops body = s.endRun c 0x0310 0 none := by
  unfold runCmd
  simp only [h, ho, hr, hw, he, Bool.and_self, if_true, if_false]

theorem State.cmd?_congr {s t : State} (h : t.fe.cmds = s.fe.cmds) (id : Nat) : t.cmd? id = s.cmd? id := by
  simp [State.cmd?, h]

/-- A command whose body is done and leaves the commands in flight alone ends: at once, or when its release may be made (R238), a
producer after its watches (R455). -/
theorem runCmd_done {s s' : State} {id op : Nat} {c : Cmd} {ops : List Nat} {body : State → Cmd → Res} {st d : Nat}
    {dst : Option Nat} (h : Runs s id op c) (ho : op ∈ ops) (hb : body s c = .done s' st d dst)
    (hs : s'.fe.cmds = s.fe.cmds) : runCmd s id ops body = s'.endRun c st d dst := by
  rw [runCmd_of_runs h ho, hb]
  have : s'.cmd? id = some c := by rw [State.cmd?_congr hs, h.1]
  simp only [this]

/-- A command whose access failed reports it and completes with its status (R213, R232). -/
theorem runCmd_fail {s s' : State} {id op : Nat} {c : Cmd} {ops : List Nat} {body : State → Cmd → Res} {e : AccErr}
    (h : Runs s id op c) (ho : op ∈ ops) (hb : body s c = .fail s' e) (hs : s'.fe.cmds = s.fe.cmds) :
    runCmd s id ops body = (s'.noteErr e c.queue c.seq.toNat).endRun c e.status 0 none := by
  rw [runCmd_of_runs h ho, hb]
  have : s'.cmd? id = some c := by rw [State.cmd?_congr hs, h.1]
  simp only [this]

/-- A command that goes on in later events. -/
theorem runCmd_more {s s' : State} {id op : Nat} {c : Cmd} {ops : List Nat} {body : State → Cmd → Res}
    (h : Runs s id op c) (ho : op ∈ ops) (hb : body s c = .more s') : runCmd s id ops body = s'.outerRuns id := by
  rw [runCmd_of_runs h ho, hb]

/-! ## Memory writes -/

/-- A memory write changes memory, registers and what has been sent, and nothing else; memory and registers keep their
canonical form. -/
def State.onlyStored (s t : State) : Prop :=
  t = { s with mem := t.mem, regs := t.regs, out := t.out } ∧ (s.mem.wf = true → t.mem.wf = true) ∧
    (s.regs.wf regReset = true → t.regs.wf regReset = true)

theorem State.onlyStored_refl : s.onlyStored s := ⟨rfl, id, id⟩
theorem State.onlyStored_trans {s t u : State} (h : s.onlyStored t) (h' : t.onlyStored u) : s.onlyStored u :=
  ⟨by rw [h'.1, h.1], fun x => h'.2.1 (h.2.1 x), fun x => h'.2.2 (h.2.2 x)⟩
theorem State.onlyStored_bump (k lo w n : Nat) : s.onlyStored (s.bump k lo w n) :=
  ⟨rfl, id, State.wf_bump s k lo w n⟩
theorem State.onlyStored_cmds {s t : State} (h : s.onlyStored t) : t.fe.cmds = s.fe.cmds := by rw [h.1]

theorem Mem.wf_iff (m : Mem) : m.wf = true ↔ m.hbm.wf Config.blankByte = true ∧ m.hbmBad.wf (fun _ => false) = true ∧
    m.hbmOne.wf (fun _ => false) = true ∧ m.sram.wf Config.blankByte = true ∧ m.sramBad.wf (fun _ => false) = true ∧
    m.sramOne.wf (fun _ => false) = true ∧ m.fences.wf (fun _ => 0) = true := by
  simp [Mem.wf, and_assoc]

theorem State.onlyStored_hbm (dpa : Nat) (bs : List Byte) : s.onlyStored { s with mem := { s.mem with
    hbm := s.mem.hbm.writeN Config.blankByte dpa bs
    hbmBad := if dpa % 64 = 0 ∧ bs.length = 64 then s.mem.hbmBad.clear (dpa / 16) 4 else s.mem.hbmBad
    hbmOne := s.mem.hbmOne.clear (dpa / 16) (wordsOf dpa bs.length).length } } := by
  refine ⟨rfl, fun h => ?_, id⟩
  rw [Mem.wf_iff] at h ⊢
  refine ⟨Tbl.wf_writeN _ _ _ _ h.1, ?_, Tbl.wf_clear _ _ _ _ h.2.2.1, h.2.2.2⟩
  show (if dpa % 64 = 0 ∧ bs.length = 64 then _ else _ : Tbl Bool).wf _ = true
  split
  · exact Tbl.wf_clear _ _ _ _ h.2.1
  · exact h.2.1

theorem State.onlyStored_setFld (k lo w v : Nat) : s.onlyStored (s.setFld k lo w v) := ⟨rfl, id, State.wf_setFld s k lo w v⟩

theorem State.onlyStored_putHbm (dpa : Nat) (bs : List Byte) : s.onlyStored (s.putHbm dpa bs) := by
  unfold State.putHbm
  dsimp only
  split
  · exact State.onlyStored_trans (State.onlyStored_setFld s _ _ _ _) (State.onlyStored_hbm _ dpa bs)
  · exact State.onlyStored_hbm s dpa bs

theorem State.onlyStored_poisonUnit (dpa : Nat) : s.onlyStored (s.poisonUnit dpa) := by
  refine ⟨rfl, fun h => ?_, id⟩
  rw [Mem.wf_iff] at h ⊢
  exact ⟨h.1, Tbl.wf_writeN _ _ _ _ h.2.1, h.2.2⟩

/-- Page-table entries change HBM and ZEROED alone (R221). -/
theorem State.onlyStored_putEntries (ws : List (Option Nat × Nat)) : s.onlyStored (s.putEntries ws).1 := by
  unfold State.putEntries
  dsimp only
  split
  · split
    · exact State.onlyStored_refl s
    · exact State.onlyStored_poisonUnit s _
  · rename_i hd
    clear hd
    induction ws generalizing s with
    | nil => exact State.onlyStored_refl s
    | cons w ws ih =>
      rw [List.foldl_cons]
      cases h : w.1 with
      | none => exact ih s
      | some d => exact State.onlyStored_trans (State.onlyStored_putHbm s d (leBytes 8 w.2)) (ih _)

theorem State.onlyStored_writeHbm (a : Acc) (dva dpa : Nat) (bs : List Byte) : s.onlyStored (s.writeHbm a dva dpa bs).1 := by
  unfold State.writeHbm
  split
  · exact State.onlyStored_bump s _ _ _ _
  · split
    · exact State.onlyStored_refl s
    · split
      · exact State.onlyStored_poisonUnit s _
      · exact State.onlyStored_putHbm s _ _

theorem foldl_put_wf (f : Nat → Bool) (k : Nat) (l : List (Byte × Nat)) (m : Mem) :
    let r := l.foldl (fun m x => if f (k + x.2) then m else { m with sram := m.sram.set Config.blankByte (k + x.2) x.1 }) m
    r = { m with sram := r.sram } ∧ (m.sram.wf Config.blankByte = true → r.sram.wf Config.blankByte = true) := by
  induction l generalizing m with
  | nil => exact ⟨rfl, id⟩
  | cons x l ih =>
    simp only [List.foldl_cons]
    split
    · exact ih m
    · obtain ⟨h1, h2⟩ := ih { m with sram := m.sram.set Config.blankByte (k + x.2) x.1 }
      exact ⟨by rw [h1], fun h => h2 (Tbl.wf_set _ _ _ _ h)⟩

theorem State.onlyStored_writeSram (a : Acc) (core off : Nat) (bs : List Byte) : s.onlyStored (s.writeSram a core off bs).1 := by
  unfold State.writeSram
  split
  · exact State.onlyStored_bump s _ _ _ _
  · refine ⟨rfl, fun h => ?_, id⟩
    rw [Mem.wf_iff] at h ⊢
    obtain ⟨h1, h2⟩ := foldl_put_wf
      (fun i => ((wordsOf (sramKey core off) bs.length).filter (fun w => s.sramBad w &&
        !(decide (sramKey core off ≤ w * 16) && decide (w * 16 + 16 ≤ sramKey core off + bs.length)))).contains (i / 16))
      (sramKey core off) bs.zipIdx s.mem
    simp only at h1 h2 ⊢
    rw [h1]
    exact ⟨h.1, h.2.1, h.2.2.1, h2 h.2.2.2.1, Tbl.wf_filter _ _ _ h.2.2.2.2.1, Tbl.wf_clear _ _ _ _ h.2.2.2.2.2.1,
      h.2.2.2.2.2.2⟩

theorem State.onlyStored_writePiece (a : Acc) (dva : Nat) (bs : List Byte) : s.onlyStored (s.writePiece a dva bs).1 := by
  unfold State.writePiece
  split
  · exact State.onlyStored_refl s
  · exact State.onlyStored_writeHbm s _ _ _ _
  · split
    · exact State.onlyStored_bump s _ _ _ _
    · exact ⟨rfl, id, id⟩

theorem State.onlyStored_writePieces (a : Acc) (ps : List (Nat × Nat)) (bs : List Byte) :
    s.onlyStored (s.writePieces a ps bs).1 := by
  induction ps generalizing s bs with
  | nil => exact State.onlyStored_refl s
  | cons p ps ih =>
    unfold State.writePieces
    have := State.onlyStored_writePiece s a p.1 (bs.take p.2)
    split
    · next heq => rw [heq] at this; exact this
    · next heq => rw [heq] at this; exact State.onlyStored_trans this (ih _ _)

theorem State.onlyStored_writeDva (a : Acc) (dva : Nat) (bs : List Byte) : s.onlyStored (s.writeDva a dva bs).1 :=
  State.onlyStored_writePieces s _ _ _

theorem State.onlyStored_writeLoc (a : Acc) (l : Loc) (bs : List Byte) : s.onlyStored (s.writeLoc a l bs).1 := by
  cases l with
  | dva d => exact State.onlyStored_writeDva s _ _ _
  | sram c o => exact State.onlyStored_writeSram s _ _ _ _

theorem State.wf_setFence (k : Nat) (v : BitVec 64) (h : s.mem.wf = true) : (s.setFence k v).mem.wf = true := by
  rw [Mem.wf_iff] at h ⊢
  exact ⟨h.1, h.2.1, h.2.2.1, h.2.2.2.1, h.2.2.2.2.1, h.2.2.2.2.2.1, Tbl.wf_set _ _ _ _ h.2.2.2.2.2.2⟩

end Sys2Proof.Machine
end

