-- ==== Sys2Proof/Tests/Slice0.lean ====
section
/-!
SUPPORT. Own tests of the model: the checks of WellFormed refuse ill-formed commands, each statement's hypotheses are met by a
concrete state (`witness_<statement>_<clause>`), and single steps checked against the spec's words, worked examples or hand
calculation from its tables (`test_<what>`).
-/
set_option exponentiation.threshold 4096
set_option Elab.async false

namespace Sys2Proof.Tests

open Sys2Proof Sys2Proof.Machine

/-! ## Small states -/

/-- A device past Eclosion, its firmware running. Partition 0 holds slice 0 with its stack, cores 0 to 2 and every port; address space 1
maps 16 pages from 0x10000. -/
def dev : State :=
  (((({ State.reset with
    clk := { perst := false, time := 5000 }
    boot := { eclosed := true }
    parts := [(0, { maps := [⟨1, 0x10000, 16, false, 0, false, true, true, false, 0⟩] })] } : State).setReg Reg.ras 0).setReg
      (Reg.part 0) 0x1E02).setReg (Reg.partStacks 0) 1).setReg (Reg.memStatus 0) 0

/-- A command in flight that has started, with work on every core: its opcode, what its packet holds from byte 32 on, and its block. -/
def cmd (op : Nat) (hi : Nat := 0) (b : Option (List Byte) := none) : Cmd :=
  { id := 1, queue := 5, pkt := op + 2 ^ 8 + 2 ^ 256 * hi, asid := 1, phase := .started, block := b, traced := List.range 32 }

/-- The device with queue 5 of the physical function and one command in flight from it. -/
def runs (c : Cmd) (s : State := dev) : State :=
  { s with fe := { s.fe with sqs := [(5, { enabled := true, size := 4, inFlight := 1 })], cmds := [c], nextCmd := 2 } }

/-- What an answer leaves. -/
def after (a : Answer) : State := match a with
  | .next s => s
  | _ => State.reset

/-- With what it fails. -/
def bad? {ε α : Type} : Except ε α → Option ε
  | .ok _ => none
  | .error e => some e

/-- A field of a block or packet in its place. -/
def at_ (byte v : Nat) : Nat := 2 ^ (8 * byte) * v

/-- Whether a check or a read succeeds. -/
def isOk {ε α : Type} : Except ε α → Bool
  | .ok _ => true
  | .error _ => false
/-- What it gives. -/
def got {ε α : Type} (d : α) : Except ε α → α
  | .ok x => x
  | .error _ => d

/-- A stopped device. -/
def halted : State := dev.setReg Reg.stopStatus 4

/-! ## WellFormed refuses -/

theorem test_wf_function : [Instr.submissionDoorbell 9 0 8 0, .submissionDoorbell 0 (2 ^ 23) 8 0, .completionHeadDoorbell 9 0 0,
    .completionHeadDoorbell 0 65536 0, .ringFetchCompletion (2 ^ 20) true true [], .hostReadCompletion 9 0 true [],
    .commandDispatch (2 ^ 20), .cqModTimeExpiry 65536 0, .arrayFenceSet 9 0 0, .arrayFenceSet 0 24 0, .unitReturnToService 9 0 .dma,
    .unitReturnToService 0 24 .dma, .unitReturnToService 0 0 (.array 4), .unitRetire 9 0 .dma, .unitRetire 0 24 .dma,
    .unitRetire 0 0 (.array 4), .firmwareRestart 9 0, .rasIrqWrite 9 0, .rasWindowDataRead 9 Reg.windowData 4, .functionLevelReset 9, .go 9 0,
    .debugClose 9 0, .doeAbort 9, .ideStreamLive 9, .bar4WindowWrite 9 0, .ideRequiredWrite 9 0, .adminEnable 9 0, .adminDisable 9 0,
    .timeLoRead 9 Reg.timeLo 4, .timeLoRead 0 Reg.timeLo 0, .timeLoRead 0 Reg.timeLo 9].all (fun i => !i.wf) = true := by decide

theorem test_wf_registers : [Instr.counterLoRead 9 (Reg.ctrLo 0 0) 4, .counterLoRead 0 (2 ^ 26 - 3) 4, .counterCfgWrite 9 0 0 0,
    .counterCfgWrite 0 24 0 0, .counterCfgWrite 0 0 16 0, .traceIndexLoRead 9 (Reg.traceLo 0) 4, .fire 9 0 0, .fire 0 8 0,
    .stopArm 9 0, .stopCancel 9 0, .stopResume 9 0, .stopReset 9 0, .thresholdWrite 9 0 0, .registerWrite 9 0 4 0 true,
    .registerWrite 0 (2 ^ 26 - 3) 4 0 true, .hostReadCompletionTimeout 9 0, .msixVectorUnmask 9 none false, .msixVectorUnmask 0 (some 2048) false,
    .doeDiscovery 9 0, .retrain 9 0 0, .retrain 0 4 0, .vfEnable 9, .bar4Write (2 ^ 36) [0], .bar4Read (2 ^ 36 - 3) 4].all
      (fun i => !i.wf) = true := by decide

theorem test_wf_partition : [Instr.stepCommit 8, .stepEndWaitTimeout 8 0, .drainOverrun 8 0, .drainEnd 8 0, .releaseScrubDone 8 0,
    .watchRecord 8 0, .watchRecord 0 8, .contextHoldReached 8, .computeReset 8 true, .traceHeaderTimer 8 0, .traceNullTimer 8 0,
    .observationWindow 8 0, .contextSwitchDone 8 true 0, .contextHoldTimeout 8 0].all (fun i => !i.wf) = true := by decide

theorem test_wf_core : [Instr.tileRequest 24 false false, .tileSteal 24 0 false, .tileSteal 0 24 true, .passCheck 24 [], .passSplit 24 0,
    .arrayFenceTakesEffect 24, .decodeSlotFill 24 0, .decodeSlotFill 0 64, .attentionChunkDone 24 .ok [], .instructionLimitExceeded 24,
    .unitWatchdogExpiry 24 .vector 0, .unitWatchdogExpiry 0 (.array 4) 0, .selfTestDone 24 .vector true [],
    .selfTestDone 0 (.array 4) true [], .fencedArraySelfTest 24 0 [], .fencedArraySelfTest 0 4 [],
    .counterWrap 24 0, .counterWrap 0 16, .patrolRead 8 0 .sound, .patrolRead 0 0xC00000000 .sound, .stackRetrain 8,
    .stackRetrainDone 8 0, .stackRetrainDone 0 4].all (fun i => !i.wf) = true := by decide

/-- A vector instruction of format A on a core that does not exist. -/
def farA : VA := { core := 24 }
/-- One of format L. -/
def farL : VL := { core := 24 }
/-- One of format S. -/
def farS : VS := { core := 24 }

theorem test_wf_vector : [Instr.vAdd farA, .vSub farA, .vMul farA, .vFma farA, .vMin farA, .vMax farA, .vCmpeq farA, .vCmplt farA,
    .vCmple farA, .vCmpun farA, .vSel farA, .vAnd farA, .vOr farA, .vXor farA, .vShl farA, .vShr farA, .vSra farA, .vCvtif farA,
    .vCvtfi farA, .vExp2 farA, .vLog2 farA, .vRcp farA, .vRsqrt farA, .vRedsum farA, .vRedsumo farA, .vRedmax farA, .vRedmin farA,
    .vScan farA, .vPerm farA, .vIdx farA, .vBcast farA, .vExtract farA, .vMand farA, .vMor farA, .vMnot farA, .vMpop farA,
    .vLd farL, .vSt farL, .vLdg farL, .vSts farL, .vRot farS, .vSadd farS, .vSsub farS, .vSmul farS, .vSld farS, .vSst farS,
    .vSli farS, .vBr farS, .vEnd farS].all (fun i => !i.wf) = true := by decide

theorem test_wf_port : [Instr.rxWrite 4 { hdr := {} }, .rxSend 4 { hdr := {} }, .rxAtomicAdd 4 { hdr := {} }, .rxAbort 4 { hdr := {} },
    .rxCancel 4 { hdr := {} }, .rxAck 4 { hdr := {} }, .rxNak 4 { hdr := {} }, .rxRnr 4 { hdr := {} }, .rxRefuse 4 { hdr := {} },
    .rxKeyx 4 0 0 0, .rxHello 4 true 0 0 0 0, .rxHello 0 true 0 4 0 0, .rxKeepalive 4, .otherFrameDrop 4 true, .segmentTransmit 4,
    .retransmitTimeout 4 0 0, .rnrRetry 4 0, .ackTimer 4 0, .keepaliveTimer 4 0, .helloTimer 4 0, .peerSilenceTimeout 4 0,
    .linkGiveUp 4 0, .rekey 4, .linkUp 4 true 0, .linkDown 4 true 0, .ethReferenceReturn 4].all (fun i => !i.wf) = true := by decide

theorem test_wf_responder : [Instr.getVersion 10, .getCapabilities 10, .negotiateAlgorithms 10 true, .getDigests 10,
    .getCertificate 10 0 0 0, .challenge 10 0 0, .getMeasurements 10 0 0, .keyExchange 10 0, .finish 10 0 true, .keyUpdate 10 0,
    .heartbeat 10 0, .endSession 10 0, .chunkSend 10 0 0 true [], .chunkGet 10 0 0, .vendorDefinedRequest 10 0 0 0 0, .ideKm 10 0 0 0,
    .ideKm 0 0 9 0, .ideKm 0 0 0 2, .brownOut 12, .supplyReturn 12 true 0 0].all (fun i => !i.wf) = true := by decide

/-! ## Hypotheses met: the machine -/

theorem witness_IdleStepCountsTime : dev.pending = [] := by decide
theorem witness_IllFormedCommandDoesNothing : (Instr.timeLoRead 9 Reg.timeLo 4).wf = false := by decide
theorem witness_QueueOutsideEffects : exec .wingbeatBeat dev = .next (after (exec .wingbeatBeat dev)) := rfl
theorem witness_QueueNeverStops : ({ dev with pending := [.wingbeatBeat, .nop 1] } : State).queueOk = true := by decide
theorem witness_StepKeepsCanonicalForm : dev.canonical = true ∧ dev.lanesOk = true ∧
    step { dev with pending := [.wingbeatBeat] } = .next (after (exec .wingbeatBeat dev)) := by
  refine ⟨by decide, by decide, rfl⟩
theorem witness_VectorRegistersKeepTheirLanes :
    ({ dev with cores := [(0, { v := [(3, List.replicate 512 7)] })] } : State).lanesOk = true := by decide +kernel

/-- The device with virtual function 1 enabled. -/
def vfDev : State := { dev with fe := { dev.fe with numVfs := 1 } }

theorem witness_RegisterWritesByWidth : dev.reaches 0 = true ∧ dev.stopped = false ∧ dev.streams 0 = false ∧
    (0x1800014 + 2 ≤ 2 ^ 26) ∧ (4 = 4 ∧ 6 % 4 ≠ 0) ∧ (8 = 8 ∧ 0x1800014 % 8 ≠ 0) ∧ vfDev.reaches 1 = true ∧ (2 ^ 26 - 8) % 8 = 0 ∧
    0x2000000 ≤ 2 ^ 26 - 8 ∧ (2 ^ 26 - 8) + 8 ≤ 2 ^ 26 ∧ (dev.setFld (regKey 0 Reg.feLink) 9 1 1).streams 0 = true ∧
    (dev.setFld (regKey 0 Reg.feLink) 9 1 1).reaches 0 = true := by decide
theorem witness_RegisterWriteFollowsAccessTypes : Reachable dev 0 Reg.alertEnable ∧ plainReg Reg.alertEnable = true ∧
    (regRow? Reg.alertEnable).isSome = true ∧ dev.ignoresWrite 0 Reg.alertEnable = false ∧
    Reachable dev 0 Reg.imgHi ∧ plainReg Reg.imgHi = true ∧ (regRow? Reg.imgHi).isSome = true ∧
    (dev.setReg Reg.secStatus 4).ignoresWrite 0 Reg.imgHi = true ∧ Reachable dev 0 (Reg.ctrHi 6 3) ∧
    plainReg (Reg.ctrHi 6 3) = true ∧ (regRow? (Reg.ctrHi 6 3)).isSome = true ∧ counterAt (Reg.ctrHi 6 3) = some (6, 7) ∧
    counterAt (Reg.ctrLo 23 15) = some (23, 30) ∧ counterAt Reg.alertEnable = none := by decide

/-- Core 2's counter 14 is chained below counter 15; its counter 3 counts the cycles of a level event. -/
def counting : State := (dev.setReg (Reg.ctrCfg 2 15) 0x400).setReg (Reg.ctrCfg 2 3) 0x812

theorem witness_ReadsThatCaptureAndCounterWords : Reachable dev 0 Reg.timeLo ∧ dev.decodes 0 Reg.timeHi = true ∧
    Reachable dev 0 (Reg.traceLo 7) ∧ Reachable vfDev 1 (Reg.traceLo 0) ∧ Reachable dev 0 (Reg.ctrLo 23 15) ∧
    Reachable counting 0 (Reg.ctrLo 2 14) ∧ counting.chained 2 15 = true ∧ Reachable dev 0 (Reg.ctrCfg 23 14) ∧
    (0x400 : BitVec 32).getLsbD 10 = true ∧ (0x103 : BitVec 32).toNat % 256 = 3 ∧ (0x10010 : BitVec 32).toNat / 2 ^ 16 % 256 ≠ 0 ∧
    counting.active = true ∧ counting.countsLevel 2 3 = true ∧ counting.chained 2 4 = false := by decide
theorem witness_ReadsThatCaptureAndCounterWords_wide : (touched (Reg.timeLo - 2) 4).contains Reg.timeLo = true ∧
    (touched (Reg.ctrLo 6 0 + 3) 8).contains (Reg.ctrLo 6 0) = true ∧ (touched (Reg.traceLo 7) 1).contains (Reg.traceLo 7) = true ∧
    (touched (Reg.windowData + 4) 8).contains (Reg.windowData + 4 * 2) = true ∧ vfDev.decodes 1 Reg.windowData = false ∧
    vfDev.reaches 1 = true := by decide
theorem witness_CountersWrapAndChain : dev.chained 0 1 = false ∧ counting.chained 2 15 = true ∧ 14 % 2 = 0 ∧
    2 ^ 48 - 1 < 2 ^ 48 ∧ bits 0x400 10 1 = 1 := by decide

/-- A COUNTER_CONFIG block for core 2: `sel` counters, with `w` for counter `k`. -/
def cfgBlock (sel k w : Nat) : List Byte := leBytes 4 4 ++ leBytes 2 sel ++ leBytes 58 0 ++ leBytes (4 * k) 0 ++ leBytes 4 w ++
  leBytes (60 - 4 * k) 0

theorem witness_CountersWrapAndChain_reject :
    let d := cmd 0x89 0 (some (cfgBlock 0x4000 14 0x400))
    Runs (runs d) 1 0x89 d ∧ num (cfgBlock 0x4000 14 0x400) 6 1 / 2 = 0 ∧ num (cfgBlock 0x4000 14 0x400) 7 57 = 0 ∧
      (∀ x ∈ dev.coreMask 0 (num (cfgBlock 0x4000 14 0x400) 0 4), (dev.coresOf 0).contains x = true) ∧
      bitB (num (cfgBlock 0x4000 14 0x400) 4 2) 14 = true ∧ bits (num (cfgBlock 0x4000 14 0x400) (64 + 4 * 14) 4) 10 1 = 1 := by
  decide

/-! ## Hypotheses met: the front end -/

/-- Submission queue 5 of 16 slots and completion queue 3 of 8, both of the physical function. -/
def queued : State := { dev with fe := { dev.fe with
  sqs := [(5, { enabled := true, size := 4, cq := 3, ring := 0x8000 })]
  cqs := [(3, { enabled := true, size := 3, ring := 0x9000, tail := 2, armed := true, modCount := 2, fresh := 2, modTime := 1,
                oldest := 4000 })] } }

theorem witness_DoorbellsMoveTailsAndHeads : queued.alive = true ∧ queued.fnExists 0 = true ∧ halted.stopped = true ∧
    queued.stopped = false ∧ queued.eclosed = true ∧ (queued.sq 5).enabled = true ∧ (queued.sq 5).fn = 0 ∧ queued.fnServes 0 = true ∧
    bits (BitVec.toNat (15 : BitVec 64)) 0 16 < 2 ^ (queued.sq 5).size ∧ 2 ^ (queued.sq 5).size ≤ bits (BitVec.toNat (16 : BitVec 64)) 0 16 ∧
    (queued.sq (2 ^ 20 - 1)).enabled = false := by decide
theorem witness_DoorbellsMoveTailsAndHeads_completion : (queued.cq 3).enabled = true ∧ (queued.cq 3).fn = 0 ∧
    bits (BitVec.toNat (0x10002 : BitVec 64)) 0 16 < 2 ^ (queued.cq 3).size ∧
    (2 + 2 ^ (queued.cq 3).size - (queued.cq 3).head) % 2 ^ (queued.cq 3).size ≤ (queued.cq 3).unread ∧
    2 ^ (queued.cq 3).size ≤ bits (BitVec.toNat (8 : BitVec 64)) 0 16 ∧ (queued.cq 65535).enabled = false ∧ queued.active = true := by
  decide
theorem witness_EntriesAndInterrupts : queued.egress (queued.cq 3).fn = true ∧
    queued.ideBlocked (queued.reqFn (queued.cq 3).fn) = false ∧ queued.fnExists 8 = false ∧ queued.fnExists 0 = true ∧
    (queued.cq 3).armed = true ∧ (queued.cq 3).noIrq = false ∧ 0 < (queued.cq 3).fresh ∧
    (queued.cq 3).modCount ≤ (queued.cq 3).fresh ∧ (queued.cq 3).oldest + 1000 * (queued.cq 3).modTime ≤ queued.now ∧
    (queued.cq 3).unread ≠ 0 ∧ queued.fe.fnMask.get (fun _ => false) 0 = false ∧
    (queued.setReg (msixBase + 12) 0).fld (regKey 0 (msixBase + 12)) 0 1 = 0 ∧ (queued.cq 4).armed = false := by decide

/-- The visit of queue 5 is due. -/
def visiting : State := { queued with fe := { queued.fe with pend := [(5, true)], tails := [(5, 3)] } }
/-- A ring read of queue 5 from slot 14 over the wrap is outstanding, and a later doorbell moved the tail. -/
def fetching : State := { queued with fe := { queued.fe with ringReads := [⟨5, 0, 0, 0, 14, 2, 1, 3, 4, false⟩] } }
/-- That of another epoch. -/
def staleFetch : State := { queued with fe := { queued.fe with ringReads := [⟨5, 0, 0, 9, 14, 2, 1, 3, 4, true⟩] } }

theorem witness_SchedulerVisitReadsSlots : visiting.active = true ∧ visiting.eclosed = true ∧ visiting.nextVisit = some (0, 5) ∧
    visiting.fe.cache.contains 5 = false ∧ visiting.ctxBad 5 = false ∧ (visiting.sq 5).behind (visiting.tail 5) = 3 ∧
    visiting.configured (visiting.sq 5).part = true ∧ visiting.ideBlocked (visiting.reqFn (visiting.sq 5).fn) = false ∧
    ({ visiting with fe := { visiting.fe with tails := [] } } : State).nextVisit = some (0, 5) ∧
    (visiting.setFld Reg.ideRequired 0 1 1).ideBlocked 0 = true ∧ (visiting.setFld Reg.ideRequired 0 1 1).nextVisit = some (0, 5) := by
  decide
theorem witness_SchedulerVisitReadsSlots_fetch : fetching.alive = true ∧ fetching.stopped = false ∧
    fetching.fe.ringReads.find? (fun r => r.queue == 5) = some ⟨5, 0, 0, 0, 14, 2, 1, 3, 4, false⟩ ∧ fetching.epoch 0 = 0 ∧
    (fetching.sq 5).enabled = true ∧ (fetching.sq 5).part = 0 ∧ (fetching.sq 5).epoch = 0 ∧ (fetching.sq 5).halted = false ∧
    (fetching.sq 5).stopFetch = false ∧ (14 + 2 + 1) % 2 ^ (fetching.sq 5).size ≠ 4 ∧
    staleFetch.fe.ringReads.find? (fun r => r.queue == 5) = some ⟨5, 0, 0, 9, 14, 2, 1, 3, 4, true⟩ ∧ 9 ≠ staleFetch.epoch 0 := by
  decide

/-- A fetched packet of queue 5. -/
def fetched (pkt : Nat) : State := { queued with fe := { queued.fe with fetched := [⟨5, 7, 15, pkt⟩] } }

theorem witness_PacketsAreCheckedInOrder : bits 0 8 4 ≠ 1 ∧ bits 0x1FF 8 4 = 1 ∧ opcodes.contains (0x1FF % 256) = false ∧
    bits 0x180 8 4 = 1 ∧ opcodes.contains (0x180 % 256) = true ∧ classMay 2 (0x180 % 256) (bits 0x180 392 8) = false ∧
    (fetched 0x100).packetCheck ((fetched 0x100).sq 5) 0x100 = none ∧ (fetched 0x100).mayDispatch ⟨5, 7, 15, 0x100⟩ = true ∧
    (fetched 0x100).fe.fetched.find? (fun f => f.queue == 5) = some ⟨5, 7, 15, 0x100⟩ ∧
    (fetched 0).packetCheck ((fetched 0).sq 5) 0 = some 0x0102 ∧ (fetched 0).queueWaits 5 = false ∧
    ((fetched 0x100).cmdOf ⟨5, 7, 15, 0x100⟩).waitCond = 0 ∧ (fetched 0x100).configured ((fetched 0x100).cmdOf ⟨5, 7, 15, 0x100⟩).part = true ∧
    stepOps.contains (0x100 % 256) = false ∧ (fetched 0).active = true ∧ (fetched 0).eclosed = true := by
  decide +kernel

/-- A dispatched command that may start. -/
def waiting (op : Nat) : Cmd := { cmd op with phase := .dispatched, met := some 4900, deadline := 5000 }

theorem witness_CommandsStartInTurn : (runs (waiting 0)).cmd? 1 = some (waiting 0) ∧ (runs (waiting 0)).mayStart (waiting 0) = true ∧
    stepOps.contains (waiting 0).op = false ∧ (waiting 0).blockSize = none ∧ (runs (waiting 0)).ranged (waiting 0) = false ∧
    (let c := { waiting 1 with met := none }
     (runs c).cmd? 1 = some c ∧ (runs c).active = true ∧ c.infinite = false ∧ c.deadline ≤ ((runs c).atTime 5000).now ∧
       c.epoch = (runs c).epoch c.part ∧ c.phase = .dispatched) := by decide
/-- A dispatched DMA_COPY within HBM, on core 1's engine. -/
def copyWaiting : Cmd := { waiting 0x10 with pkt := 0x10 + 2 ^ 8 + at_ 32 0x10000 + at_ 40 0x18000 + at_ 48 64 + at_ 56 1 }
theorem witness_CommandsStartInTurn_parity : (runs copyWaiting).cmd? 1 = some copyWaiting ∧
    (runs copyWaiting).mayStart copyWaiting = true ∧ copyWaiting.blockSize = none ∧ (runs copyWaiting).ranged copyWaiting = false ∧
    ((runs copyWaiting).uses copyWaiting).1.contains 1 = true := by decide +kernel
theorem witness_HostReadsComeBackByTag :
    let s := { dev with fe := { dev.fe with tags := [⟨3, 0, 1, 0, 0, 0x5000, 64⟩, ⟨4, 0, 1, 0, 9, 0x5000, 64⟩] } }
    halted.stopped = true ∧ halted.alive = true ∧ s.tag? 0 3 = some ⟨3, 0, 1, 0, 0, 0x5000, 64⟩ ∧ s.epoch 0 = 0 ∧ s.tag? 0 4 = some ⟨4, 0, 1, 0, 9, 0x5000, 64⟩ ∧ 9 ≠ s.epoch 0 ∧
      s.alive = true ∧ s.stopped = false := by decide

/-! ## Hypotheses met: the front end's commands -/

/-- A NOP that signals fence 7 of its partition by mode `m` with value 5. -/
def signalling (m : Nat) : Cmd := { cmd 0 with pkt := 0x100 + at_ 12 (7 + 2 ^ 24 * m) + at_ 24 5 }

theorem witness_FenceConditionsAndSignals : okStatus 0 = true ∧ dev.fenceKey 0 (signalling 1).signalFence = some 7 ∧
    dev.fenceFault 7 = none ∧ (signalling 1).signalMode = 1 ∧ (signalling 2).signalMode = 2 ∧ (signalling 3).signalMode = 3 ∧
    (signalling 0).signalMode = 0 ∧ okStatus 0x0104 = false ∧ (signalling 1).signalOnError = false := by decide
theorem witness_EndedCommandsLeaveFlight : (runs (cmd 0)).cmd? (cmd 0).id = some (cmd 0) ∧
    ((runs (cmd 0)).sq (cmd 0).queue).adminGone = false ∧ (cmd 0).signalMode = 0 ∧ (cmd 0).halts 0x0104 = true ∧
    (cmd 0).halts 0 = false ∧ (cmd 0).continueOnError = false := by decide

/-- TIMESTAMP to `dst`, with the counters of core `core` if asked. -/
def stamp (dst counters core : Nat) : Cmd := cmd 3 (dst + 2 ^ 64 * (counters + 2 ^ 8 * core))

theorem witness_FrontEndCommandsComplete : Runs (runs (cmd 0)) 1 0 (cmd 0) ∧ Runs (runs (cmd 1)) 1 1 (cmd 1) ∧
    Runs (runs (cmd 2)) 1 2 (cmd 2) ∧ Runs (runs (stamp 0x10000 1 2)) 1 3 (stamp 0x10000 1 2) ∧
    (stamp 0x10000 1 2).f 32 0 64 = 0x10000 ∧ (dev.coresOf 0).contains ((stamp 0x10000 1 2).f 41 0 5) = true ∧
    Runs (runs (stamp 0x10004 0 0)) 1 3 (stamp 0x10004 0 0) ∧ (stamp 0x10004 0 0).f 32 0 64 % 8 ≠ 0 ∧
    Runs (runs (stamp 0x10000 1 3)) 1 3 (stamp 0x10000 1 3) ∧ (dev.coresOf 0).contains ((stamp 0x10000 1 3).f 41 0 5) = false := by
  decide +kernel
theorem witness_FrontEndCommandsComplete_write :
    let c := stamp 0x10000 0 0
    let s := runs c
    (s.writeDva (s.accOf c 31 true) 0x10000 (leBytes 8 c.start)).2 = none ∧
      (s.writeDva (s.accOf c 31 true) 0x10000 (leBytes 8 c.start)).1.cmd? 1 = some c := by decide
/-- A TIMESTAMP whose work is done, behind an older command of its engine on core 0. -/
def written : Cmd := { cmd 3 with id := 2, phase := .written, cores := [0] }
theorem witness_FrontEndCommandsComplete_release :
    let s := { runs written with fe := { (runs written).fe with cmds := [{ cmd 3 with cores := [0] }, written] } }
    s.cmd? 2 = some written ∧ s.canRun written = true ∧ written.op = 3 ∧ s.releaseHeld written = true ∧
      ({ runs written with fe := { (runs written).fe with cmds := [written] } } : State).releaseHeld written = false ∧
      isProducer 3 = false ∧ isProducer 0x10 = true ∧
      (let c := { cmd 3 with hostErr := true }
       (runs c).cmd? 1 = some c ∧ (runs c).canRun c = true ∧ c.phase ≠ .written) := by decide

/-- A step is open in partition 0, and STEP_END `id` waits for it. -/
def stepping : State := (runs { cmd 5 with phase := .running, deadline := 5000 }
  (dev.setReg (Reg.part 0) 0x1E0A)).updPart 0 fun x => { x with ends := [1] }

theorem witness_StepsOpenAndCommit : Runs (runs (cmd 4)) 1 4 (cmd 4) ∧ (cmd 4).phase = .started ∧
    dev.fld (Reg.part 0) 3 1 = 0 ∧ (dev.part 0).watches = [] ∧ stepping.fld (Reg.part 0) 3 1 = 1 ∧
    Runs (runs (cmd 5)) 1 5 (cmd 5) ∧ (cmd 5).phase = .started ∧ Runs (runs (cmd 5) stepping) 1 5 (cmd 5) ∧
    Runs (runs (cmd 4) stepping) 1 4 (cmd 4) := by decide
/-- STEP_BEGIN with a list of one entry at 0x10000, its results at 0x10100. -/
def beginOne : Cmd := cmd 4 (0x10000 + 2 ^ 64 * 0x10100 + 2 ^ 128)
theorem witness_StepsOpenAndCommit_turn :
    let s := runs beginOne
    let u := (s.openStep beginOne).updCmd 1 fun c => { c with phase := .running }
    let s' := { s with fe := { s.fe with cmds := { cmd 0x38 with id := 0 } :: s.fe.cmds } }
    let r := u.reserveAll beginOne (u.reg64 (Reg.stepLo 0) (Reg.stepHi 0)) [] (got [] (s.reserveList beginOne)) (beginOne.f 40 0 64) 0
    Runs s 1 4 beginOne ∧ isOk (s.reserveList beginOne) = true ∧ (got [] (s.reserveList beginOne)).length = 1 ∧
      u.kvTurn beginOne = true ∧ ((s'.openStep beginOne).updCmd 1 fun c => { c with phase := .running }).kvTurn beginOne = false ∧
      r.2.2.isNone = true ∧ (r.1.cmd? 1).isSome = true := by decide +kernel
theorem witness_StepsOpenAndCommit_commit :
    let c := { cmd 5 with phase := .running, deadline := 5000 }
    (stepping.part 0).ends = [1] ∧ stepping.cmd? 1 = some c ∧ stepping.endReady c = true ∧ stepping.stepSettled 0 = true ∧
    stepping.inTime c = true ∧ stepping.kvTurn c = true ∧ c.infinite = false ∧ c.deadline < (stepping.atTime 5001).now ∧
    (stepping.updPart 0 fun x => { x with awaits := [1] }).stepSettled 0 = false ∧ c.deadline ≤ (stepping.atTime 0).now ∧
    (∀ e ∈ (dev.part 0).seqs, e.2 ≠ {}) ∧ ((dev.part 0).seqs.map (·.1)).Nodup := by decide

/-! ## Hypotheses met: queues, functions and the host window -/

/-- QUEUE_CREATE and QUEUE_DESTROY of queue `q`: `kind` 0 a submission queue, 1 a completion queue, 2 a resume. -/
def qcmd (op q kind : Nat) (b : Option (List Byte) := none) : Cmd := cmd op (at_ 12 q + at_ 16 kind) b
/-- A submission-queue block: ring 0x4000, 16 slots, partition 0, completion queue 3. -/
def sqBlock : List Byte := leBytes 8 0x4000 ++ leBytes 1 4 ++ leBytes 1 0 ++ leBytes 2 0 ++ leBytes 2 3 ++ leBytes 50 0
/-- A completion-queue block: ring 0x4000, 16 slots, vector 9. -/
def cqBlock : List Byte := leBytes 8 0x4000 ++ leBytes 1 4 ++ leBytes 1 0 ++ leBytes 2 9 ++ leBytes 52 0
/-- The device with a command in flight, and completion queue 3, submission queue 7 (halted) and queue 8 there. -/
def qrun (c : Cmd) : State :=
  let s := runs c
  { s with fe := { s.fe with
    cqs := [(3, { enabled := true, size := 3 }), (4, { enabled := true, size := 3 })]
    sqs := s.fe.sqs ++ [(7, { enabled := true, halted := true, haltStatus := 0x0102, cq := 3, size := 4 })] } }

theorem witness_QueuesAreMade : let c := qcmd 0x80 9 0 (some sqBlock)
    Runs (qrun c) 1 0x80 c ∧ c.f 48 0 2 = 0 ∧ (qrun c).inCreatorRange c (c.f 44 0 32) false = true ∧
      ((qrun c).sq (c.f 44 0 32)).enabled = false ∧ sqBlockOk sqBlock ((qrun c).sqOwner (c.f 44 0 32)) = true ∧
      (qrun c).cqOwner (num sqBlock 12 2) = (qrun c).sqOwner (c.f 44 0 32) ∧ ((qrun c).cq (num sqBlock 12 2)).enabled = true := by
  decide +kernel
theorem witness_QueuesAreMade_completion : let c := qcmd 0x80 5 1 (some cqBlock)
    Runs (qrun c) 1 0x80 c ∧ c.f 48 0 2 = 1 ∧ (qrun c).inCreatorRange c (c.f 44 0 32) true = true ∧
      ((qrun c).cq (c.f 44 0 32)).enabled = false ∧ cqBlockOk cqBlock = true := by decide +kernel
theorem witness_QueuesAreMade_resume : let c := qcmd 0x80 7 2 (some sqBlock)
    Runs (qrun c) 1 0x80 c ∧ c.f 48 0 2 = 2 ∧ (qrun c).inCreatorRange c (c.f 44 0 32) false = true ∧
      ((qrun c).sq (c.f 44 0 32)).enabled = true ∧ ((qrun c).sq (c.f 44 0 32)).halted = true ∧
      ((qrun c).sq (c.f 44 0 32)).lost = false := by decide +kernel
theorem witness_QueuesAreMade_errors : let c := qcmd 0x80 (2 ^ 20) 0 (some sqBlock); let d := qcmd 0x80 7 0 (some sqBlock)
    Runs (qrun c) 1 0x80 c ∧ c.f 48 1 1 = 0 ∧ (qrun c).inCreatorRange c (c.f 44 0 32) (c.f 48 0 1 == 1) = false ∧
      Runs (qrun d) 1 0x80 d ∧ (qrun d).inCreatorRange d (d.f 44 0 32) false = true ∧ ((qrun d).sq (d.f 44 0 32)).enabled = true := by
  decide +kernel
theorem witness_QueuesAreUnmade : let c := qcmd 0x81 7 0; let d := { qcmd 0x81 7 0 with phase := .running }
    Runs (qrun c) 1 0x81 c ∧ (qrun c).inCreatorRange c (c.f 44 0 32) (c.f 48 0 1 == 1) = true ∧
      ((qrun c).sq (c.f 44 0 32)).enabled = true ∧ Runs (qrun d) 1 0x81 d ∧ d.phase = .running ∧
      ((qrun d).sq (d.f 44 0 32)).inFlight = (if d.queue = d.f 44 0 32 then 1 else 0) ∧
      (∀ r ∈ (qrun d).fe.ringReads, r.queue ≠ d.f 44 0 32) := by decide +kernel
theorem witness_QueuesAreUnmade_completion : let c := qcmd 0x81 4 1; let d := qcmd 0x81 3 1
    Runs (qrun c) 1 0x81 c ∧ (qrun c).inCreatorRange c (c.f 44 0 32) (c.f 48 0 1 == 1) = true ∧
      ((qrun c).cq (c.f 44 0 32)).enabled = true ∧ (∀ x ∈ (qrun c).fe.sqs, x.2.enabled = true → x.2.cq ≠ c.f 44 0 32) ∧
      Runs (qrun d) 1 0x81 d ∧ ((qrun d).cq (d.f 44 0 32)).enabled = true ∧
      (∃ x ∈ (qrun d).fe.sqs, x.2.enabled = true ∧ x.2.cq = d.f 44 0 32) := by decide +kernel
theorem witness_AdminQueuesStartAndEnd : Reachable dev 0 Reg.adminCtl ∧ bitB (BitVec.toNat (0x40000404 : BitVec 32)) 30 = true ∧
    dev.fld (regKey 0 Reg.adminCtl) 30 1 = 0 ∧ bits (BitVec.toNat (0x40000404 : BitVec 32)) 0 5 = 4 ∧
    bits (BitVec.toNat (0x40000404 : BitVec 32)) 8 5 = 4 ∧ (dev.sq (dev.adminIds 0).1).enabled = false ∧
    (dev.cq (dev.adminIds 0).2).enabled = false ∧ bits (BitVec.toNat (0x40000403 : BitVec 32)) 0 5 < 4 ∧
    (let v := { vfDev with fe := { vfDev.fe with numVfs := 2 } }
     Reachable v 2 Reg.adminCtl ∧ v.configured 1 = false ∧ v.fld (regKey 2 Reg.adminCtl) 30 1 = 0) := by decide +kernel
theorem witness_AdminQueuesStartAndEnd_end :
    let s := after (exec (.adminEnable 0 0x40000404) dev)
    Reachable s 0 Reg.adminCtl ∧ bitB (BitVec.toNat (0x404 : BitVec 32)) 30 = false ∧ s.fld (regKey 0 Reg.adminCtl) 31 1 = 1 ∧
      (s.sq (s.adminIds 0).1).enabled = true ∧ (s.sq (s.adminIds 0).1).inFlight = 0 ∧
      ((s.updSq (s.adminIds 0).1 fun x => { x with inFlight := 1 }).sq (s.adminIds 0).1).inFlight ≠ 0 ∧
      (∀ r ∈ s.fe.ringReads, r.queue ≠ (s.adminIds 0).1) := by decide +kernel

/-- Vector 7 of the physical function is masked and pending; its stream has key sets and holds a message. -/
def masked : State := { ((dev.setReg (regKey 0 (msixBase + 16 * 7 + 12)) 1).setReg (regKey 0 pbaBase) 0x80) with
  fe := { dev.fe with ideKeys := [(0, 3)], heldIde := [(0, .msix 0 1)] }
  boot := { eclosed := true, sessions := [⟨0, 5, true⟩] } }

theorem witness_FunctionsVectorsAndStreams : Reachable masked 0 (msixBase + 16 * 7 + 12) ∧
    Reachable masked 0 (msixBase + 16 * 2047 + 12) ∧ masked.fld (regKey 0 pbaBase) 7 1 = 1 ∧
    masked.fe.fnMask.get (fun _ => false) 0 = false ∧ masked.ideBlocked 0 = false ∧ masked.fld (regKey 0 pbaBase) 8 1 = 0 ∧
    masked.active = true ∧ masked.fnExists 0 = true ∧ masked.fe.ideKeys.get (fun _ => 0) 0 ≠ 0 ∧ Reachable masked 0 Reg.ideRequired ∧
    Answers masked 0 ∧ masked.established 0 5 = true := by decide +kernel
theorem witness_FunctionsVectorsAndStreams_mask : Reachable vfDev 1 (msixBase + 16 * 9 + 12) ∧ vfDev.active = true ∧ vfDev.alive = true ∧
    vfDev.fnExists 1 = true ∧ vfDev.fld (regKey 1 pbaBase) 9 1 = 0 ∧ (1 : Nat) ∉ masked.fe.heldIde.map (·.1) := by decide +kernel

/-- The BAR4 window is strapped, and open onto partition 0 at base 0. -/
def window : State := { (dev.setReg Reg.bar4 8).setReg (Reg.part 0) 0x3E02 with clk := { dev.clk with straps := 1 } }

theorem witness_HostWindowReachesPartitionMemory : window.alive = true ∧ window.stopped = false ∧ window.active = true ∧
    window.hasBar4 = true ∧ window.fld Reg.bar4 3 1 = 1 ∧ 0x3C % 64 + 4 ≤ 64 ∧
    window.sealedHit (window.fld Reg.bar4 0 3) (window.fld Reg.bar4 16 9 * 2 ^ 30 + 0x3C) 4 = false ∧
    window.dpaOf (window.fld Reg.bar4 0 3) (window.fld Reg.bar4 16 9 * 2 ^ 30 + 0x3C) = some 0x3C ∧
    window.offline (0x3C / stackBase 1) = false ∧ (∀ w, w < 4 → window.hbmBad w = false) ∧ dev.fld Reg.bar4 3 1 = 0 ∧ dev.active = true ∧
    Reachable dev 0 Reg.bar4 ∧ bitB (BitVec.toNat (8 : BitVec 32)) 3 = true ∧ dev.fld (Reg.part 0) 13 1 = 0 ∧
    Reachable window 0 Reg.bar4 ∧ window.fld (Reg.part 0) 13 1 = 1 ∧ 0x3C + 4 ≤ 2 ^ 36 ∧ halted.stopped = true ∧ halted.alive = true := by
  decide +kernel

/-! ## Hypotheses met: memory and the data movers -/

/-- The device with a poisoned word, at 0x100, and stack 1 in no service. -/
def poisoned : State := { dev with mem := { dev.mem with hbmBad := [(0x10, true)] } }
/-- Bytes in HBM. -/
def withBytes (s : State) (a : Nat) (bs : List Byte) : State :=
  { s with mem := { s.mem with hbm := s.mem.hbm.writeN Config.blankByte a bs } }
/-- An access of partition 0, of epoch `e`. -/
def acc (e : Nat := 0) : Acc := { part := 0, asid := 1, hostOk := true, since := 1, epoch := e }

theorem witness_MemoryWritesStoreBytes : 0x3C % 64 + 4 ≤ 64 ∧ (acc).epoch = dev.epoch 0 ∧ dev.offline (0x3C / stackBase 1) = false ∧
    dev.mem.hbmBad = [] ∧ poisoned.hbmBad 0x10 = true ∧ 0x100 / 64 * 4 ≤ 0x10 ∧ 0x10 < 0x100 / 64 * 4 + 4 ∧
    dev.offline (0x1000000000 / stackBase 1) = true ∧ (acc 9).epoch ≠ dev.epoch 0 ∧ poisoned.hbmBad (0x100 / 16) = true := by
  decide +kernel

/-- Mappings of every kind in address space 1, and a sealed range. -/
def mapped : State := dev.updPart 0 fun x => { x with
  maps := x.maps ++ [⟨1, 0x40000, 1, false, 0x40000, false, false, false, false, 0⟩, ⟨1, 0x50000, 1, false, 0x9000, true, true, true, false, 0⟩,
    ⟨1, 0x60000, 1, false, usable, false, true, true, false, 0⟩, ⟨1, 0x70000, 1, false, 0x70000, false, true, false, false, 0⟩]
  sealed := [(0x70000, 4096)] }

theorem witness_TranslationFollowsRights : mapped.mapping acc 0 = none ∧
    mapped.mapping acc 0x10000 = some ⟨1, 0x10000, 16, false, 0, false, true, true, false, 0⟩ ∧ mapped.sealedHit 0 0 1 = false ∧
    mapped.dpaOf 0 0 = some 0 ∧ mapped.mapping acc 0x40FFF = some ⟨1, 0x40000, 1, false, 0x40000, false, false, false, false, 0⟩ ∧
    mapped.mapping acc 0x50000 = some ⟨1, 0x50000, 1, false, 0x9000, true, true, true, false, 0⟩ ∧ mapped.ideBlocked 0 = false ∧
    mapped.mapping acc 0x60000 = some ⟨1, 0x60000, 1, false, usable, false, true, true, false, 0⟩ ∧ mapped.dpaOf 0 usable = none ∧
    mapped.mapping acc 0x70FFF = some ⟨1, 0x70000, 1, false, 0x70000, false, true, false, false, 0⟩ ∧
    mapped.sealedHit 0 0x70FFF 1 = true ∧ (mapped.part 0).tables = [] ∧ { acc with user := true }.user = true ∧
    { acc with hostOk := false }.hostOk = false := by decide +kernel

/-- An entry of a page table in HBM: its address and value. -/
def withEntry (s : State) (e : Nat × Nat) : State := withBytes s e.1 (leBytes 8 e.2)
/-- Five levels of tables from 0x1000000 that map the page at 0x10000 to 0x7000, writable and for users; a leaf stands at level 3,
a 2 MiB leaf at level 1, and the pool goes on into the stack that is out of service. -/
def tree : State := [(0x1000000, 0x1001001), (0x1001000, 0x1002001), (0x1002000, 0x1003001), (0x1003000, 0x1004001), (0x1004080, 0x700F),
    (0x1001008, 0x3), (0x1003008, 0x400007)].foldl withEntry
  (dev.updPart 0 fun x => { x with ptPool := 0x1000000, ptTables := 64, tables := [⟨1, 4, 0, 0⟩] })
/-- The same with the root's words uncorrectable. -/
def brokenTree : State := { tree with mem := { tree.mem with hbmBad := [(0x100000, true)] } }

theorem witness_TranslationFollowsRights_walk : (tree.part 0).tables.find? (fun t => t.asid == 1 && t.level == 4) = some ⟨1, 4, 0, 0⟩ ∧
    (tree.walk 0 0x10000 4 0x1000000).toOption = some (0x700F, false) ∧ (tree.walk 0 0x200000 4 0x1000000).toOption = some (0x400007, true) ∧
    bad? (tree.walk 0 0x11000 4 0x1000000) = some (0x0301, none) ∧ bad? (tree.walk 0 (2 ^ 39) 4 0x1000000) = some (0x0301, none) ∧
    tree.mapping acc 0x10000 = some ⟨1, 0x10000, 16, false, 0, false, true, true, false, 0⟩ ∧
    isOk (tree.walked acc ⟨1, 0x10000, 16, false, 0, false, true, true, false, 0⟩ 0x10000 true) = true ∧
    isOk (tree.walked acc ⟨1, 0x10000, 16, false, 0, false, true, true, false, 0⟩ 0x11000 true) = false ∧
    bad? (brokenTree.walk 0 0x10000 4 0x1000000) = some (0x0310, some 0x1000000) ∧
    (let s := tree.setFld (Reg.memStatus 0) 0 2 3; s.dpaOf 0 0x1000000 = some 0x1000000 ∧ s.offline (0x1000000 / stackBase 1) = true) := by
  decide +kernel
theorem witness_PartitionsShareNoMemory : dev.dpaOf 0 (usable - 1) = some (usable - 1) ∧ usable - 1 < (dev.stacksOf 0).length * usable ∧
    (let s := (dev.setReg (Reg.part 1) 0x12).setReg (Reg.partStacks 1) 2
     (∀ st ∈ s.stacksOf 0, st ∉ s.stacksOf 1) ∧ s.dpaOf 1 0 = some (stackBase 1)) := by decide +kernel

/-- DMA_COPY of `n` bytes between two addresses, by the engine of a field. -/
def copy (src dst n : Nat) (engine : Nat := 31) : Cmd := cmd 0x10 (src + 2 ^ 64 * dst + 2 ^ 128 * n + 2 ^ 192 * engine)

theorem witness_CopiesAndFills : let c := copy 0x10000 0x11000 64
    Runs (runs c) 1 0x10 c ∧ (runs c).parseLoc 0 (c.f 32 0 64) true = .ok (.dva 0x10000) ∧
      (runs c).parseLoc 0 (c.f 40 0 64) true = .ok (.dva 0x11000) ∧ (Loc.dva 0x10000).fits 64 = true ∧
      (Loc.dva 0x10000).overlaps (.dva 0x11000) 64 = false ∧
      isOk ((runs c).dmaCore c (c.f 56 0 5) 0x10000 0x11000) = true ∧
      c.missing ((runs c).locHost ((runs c).accOf c 0 true) (.dva 0x10000) 64) = [] ∧
      isOk (((runs c).touch 1 0).readLoc ((runs c).accOf c 0 true) (.dva 0x10000) 64) = true ∧
      (((runs c).touch 1 0).writeLoc ((runs c).accOf c 0 true) (.dva 0x11000) (leBytes 64 0)).2 = none ∧
      (Loc.dva 0x10000).overlaps (.dva 0x1003F) 64 = true ∧ (runs c).dmaTurn c 0 = true ∧
      ({ runs c with fe := { (runs c).fe with cmds := List.replicate 4 { copy 0 0 64 with id := 0, cores := [0] } ++ [c] } } : State).dmaTurn
        c 0 = false := by
  refine ⟨by decide +kernel, rfl, rfl, ?_⟩
  decide +kernel
theorem witness_CopiesAndFills_errors : let c := copy 0x10000 0x11000 64 3
    Runs (runs c) 1 0x10 c ∧ (runs c).dmaCore c (c.f 56 0 5) 0x10000 0x11000 = .error 0x0911 ∧
      (let s := dev.setReg (Reg.dmaFault 0) 1
       s.dmaServes (s.engineCore 0 0 0 0) = false ∧ (s.coresOf 0).contains (s.engineCore 0 0 0 0) = true) := by
  refine ⟨by decide +kernel, rfl, by decide +kernel⟩
theorem witness_CopiesAndFills_fill : let c := cmd 0x12 (0x10000 + 2 ^ 64 * 16 + 2 ^ 192 * 31)
    Runs (runs c) 1 0x12 c ∧ (runs c).parseLoc 0 (c.f 32 0 64) true = .ok (.dva 0x10000) ∧ c.f 40 0 64 % 8 = 0 ∧
      (Loc.dva 0x10000).fits (c.f 40 0 64) = true ∧ (runs c).dmaTurn c 0 = true ∧ (runs c).dmaCore c (c.f 56 0 5) (c.f 32 0 64) (c.f 32 0 64) = .ok 0 ∧
      (((runs c).touch 1 0).writeLoc ((runs c).accOf c 0 true) (.dva 0x10000)
        ((List.range (c.f 40 0 64)).map (fun i => BitVec.ofNat 8 (c.f 48 0 64 / 2 ^ (8 * (i % 8)))))).2 = none := by
  refine ⟨by decide +kernel, rfl, by decide +kernel, by decide +kernel, by decide +kernel, rfl, by decide +kernel⟩

/-- A tensor descriptor: its address, shape, format word and flags; rows 64 bytes apart. -/
def desc (a rows cols word : Nat) (flags : Nat := 0) : List Byte :=
  leBytes 8 a ++ leBytes 8 0 ++ leBytes 4 rows ++ leBytes 4 cols ++ leBytes 4 64 ++ leBytes 2 word ++ leBytes 2 flags
/-- A block of DMA_CONVERT, ROTATE or COMPRESS: one row of 16 from 0x10000 to 0x11000. -/
def moveBlock (word flags log2n : Nat) : List Byte :=
  desc 0x10000 1 16 0 ++ desc 0x11000 1 16 word flags ++ leBytes 8 0 ++ leBytes 1 log2n ++ leBytes 23 0
def convert : Cmd := cmd 0x11 0 (some (moveBlock 1 0 0))
def rotation : Cmd := cmd 0x23 0 (some (moveBlock 1 0 4))
def compression : Cmd := cmd 0x30 0 (some (moveBlock 0 1 0))
/-- No move, for a check that fails. -/
def noMove : Move := { src := ⟨.dva 0, 0, 0, 0, 0, 0, false⟩, dst := ⟨.dva 0, 0, 0, 0, 0, 0, false⟩, mask := 0, log2n := 0, rnd := .rne,
                       ieee := false }
/-- A compressed tensor of one row of 64 bytes, at 0x11000: directory 0x14000, heap 0x15000, no table. -/
def packing : State := withBytes (runs compression) 0x1000 (leBytes 8 0x14000 ++ leBytes 8 0x15000 ++ leBytes 4 16 ++ leBytes 12 0 ++
  leBytes 4 1 ++ leBytes 4 64 ++ leBytes 8 0 ++ leBytes 1 0x40 ++ leBytes 15 0)

/-- The state in which the path decoder of core 0 has the tables of a move's source. -/
def pathed (s : State) (a : Acc) (t : Tensor) : State := (s.touch 1 0).runLane 0 (pathLane 1) ((s.touch 1 0).pathTables a t)
theorem witness_ConvertsRotatesCompresses_convert : let s := runs convert; let a := s.accOf convert 0 true
    let m := got noMove (s.parseMove convert); let t := pathed s a m.src
    let x := convTensor m.dst m.rnd m.ieee ((got [] (t.readTensor a m.src)).map (rotateRow m.log2n (fun _ => false)))
    let fl := x.flags ||| t.scaleFlag a m.src
    Runs s 1 0x11 convert ∧ s.dmaTurn convert 0 = true ∧ isOk (s.parseMove convert) = true ∧
      isOk (s.dmaCore convert 0 0x10000 0x11000) = true ∧ m.mask = 0 ∧ m.dst.packed = false ∧ convert.missing (s.tensorHost a m.src) = [] ∧
      (t.core 0).lanes.get (fun _ => []) (pathLane 1) = [] ∧ isOk (t.openTensor a m.dst) = true ∧
      isOk (t.readTensor a m.src) = true ∧ isOk (t.signMask a m) = true ∧ fl = 0 ∧
      ((t.noteConv 0 fl x.lost).storeConv a m.dst none x).2.isNone = true := by decide +kernel
theorem witness_ConvertsRotatesCompresses_rotate : let s := runs rotation; let a := s.accOf rotation 0 true
    let m := got noMove (s.parseMove rotation); let t := pathed s a m.src; let b := s.setReg (Reg.vecFault 0) 1
    Runs s 1 0x23 rotation ∧ isOk (s.parseMove rotation) = true ∧ s.vecTurn rotation [0] = true ∧ s.fld (Reg.vecFault 0) 0 1 = 0 ∧
      (t.core 0).lanes.get (fun _ => []) (pathLane 1) = [] ∧ isOk (t.readTensor a m.src) = true ∧ isOk (t.signMask a m) = true ∧
      Runs b 1 0x23 rotation ∧ isOk (b.parseMove rotation) = true ∧ isOk (b.dmaCore rotation 0 0x10000 0x11000) = true ∧
      b.fld (Reg.vecFault 0) 0 1 = 1 ∧ (let w := s.updCore 0 fun k => { k with run := some { cmd := 9 } }
        Runs w 1 0x23 rotation ∧ w.vecTurn rotation [0] = false) := by
  decide +kernel
theorem witness_ConvertsRotatesCompresses_compress : let s := packing; let a := s.accOf compression 0 true
    let m := got noMove (s.parseMove compression); let t := pathed s a m.src; let cd := got none (t.openTensor a m.dst)
    Runs s 1 0x30 compression ∧ isOk (s.parseMove compression) = true ∧ s.dmaTurn compression 0 = true ∧ m.src.sf = 0 ∧ m.mask = 0 ∧
      (t.core 0).lanes.get (fun _ => []) (pathLane 1) = [] ∧ isOk (t.openTensor a m.src) = true ∧
      cd.isSome = true ∧ isOk (t.rawRows a m.src none (List.range m.src.rows)) = true ∧
      compression.missing (s.tensorHost a m.src ++ s.locHost a m.dst.loc 64) = [] ∧
      (t.storeBytes a m.dst cd (got [] (t.rawRows a m.src none (List.range m.src.rows)))).2.isNone = true := by decide +kernel

/-- Core 0 caches unit 2 with byte 5 written. -/
def cached (dirty : Nat) : State := { dev with cores := [(0, { cache := [{ unit := 2, data := leBytes 64 7, dirty }] })] }

theorem witness_CachesWriteBackAndDrop : dev.offline (2 * 64 / stackBase 1) = false ∧ dev.mem.hbmBad = [] ∧
    Runs (runs (cmd 0x13)) 1 0x13 (cmd 0x13) ∧ Runs (runs (cmd 0x14 (at_ 16 8))) 1 0x14 (cmd 0x14 (at_ 16 8)) ∧
    3 ∈ dev.coreMask 0 ((cmd 0x14 (at_ 16 8)).f 48 0 32) ∧ 3 ∉ dev.coresOf 0 ∧
    (∀ k ∈ (cached 0).coreMask 0 ((cmd 0x13).f 48 0 32), k ∈ (cached 0).coresOf 0) ∧ (cmd 0x13).f 40 0 64 = 0 ∧
    (∀ k ∈ (cached 0).coreMask 0 0, ∀ l ∈ ((cached 0).core k).cache, l.dirty = 0) ∧
    Runs (runs (cmd 0x14 (at_ 20 1)) (cached 0x20)) 1 0x14 (cmd 0x14 (at_ 20 1)) ∧ (cmd 0x14 (at_ 20 1)).f 52 0 1 = 1 := by
  decide +kernel

/-- MMU_MAP or MMU_UNMAP of `n` writable 4 KiB pages of address space 1. -/
def mapCmd (op dva n : Nat) : Cmd := cmd op (dva + 2 ^ 64 * 0x80000 + 2 ^ 128 * (n + 2 ^ 32 * (1 + 2 ^ 8 * 2)))
/-- The device with room for page tables. -/
def tabled : State := dev.updPart 0 fun x => { x with ptPool := 0x1000000, ptTables := 64 }

theorem landing_dpa (s : State) (p x : Nat) (hst : s.stacksOf p = [0]) (hx : x < usable) : s.dpaOf p x = some x := by
  have h3 : x / 512 * 512 + x % 512 = x := by omega
  have h4 : ([0] : List Nat)[(x / 512 % 1 + x / 512 / 1024) % 1]? = some 0 := by
    rw [Nat.mod_one]; rfl
  simp only [State.dpaOf, hst, List.length_singleton, Nat.one_mul, if_pos hx, h4, Option.map_some, Nat.div_one, stackBase, Nat.zero_mul,
    Nat.zero_add, Nat.add_assoc, h3]

theorem pool_sound (c : Cmd) : PoolSound (runs c tabled) 0 := by
  have hst : (runs c tabled).stacksOf 0 = [0] := by show tabled.stacksOf 0 = [0]; decide +kernel
  have hpt : ((runs c tabled).part 0).ptTables = 64 := rfl
  have hpp : ((runs c tabled).part 0).ptPool = 0x1000000 := rfl
  intro n d hn hd
  rw [hpt] at hn
  rw [hpp, landing_dpa _ 0 _ hst (by unfold usable; omega)] at hd
  have hz : d / stackBase 1 = 0 := Nat.div_eq_of_lt (by unfold stackBase; cases hd; omega)
  rw [hz]
  exact ⟨by show tabled.offline 0 = false; decide +kernel, fun _ _ _ => rfl⟩
/-- Tables of every level stand in the pool. -/
def brokenPool : State := (tabled.updPart 0 fun x => { x with tables := (List.range 5).map (fun i => ⟨1, 4 - i, 0, i⟩) })
/-- The same, the word of the leaf entry for the page at 0x80000 uncorrectable. -/
def brokenLeaf : State := { brokenPool with mem := { brokenPool.mem with hbmBad := [(0x100440, true)] } }
theorem witness_PagesAreMappedAndRemoved_poison : let c := mapCmd 0x84 0x80000 4; let s := runs c brokenLeaf
    Runs s 1 0x84 c ∧ s.mapCheck c (c.mapRun s.fe.nextCmd) = 0 ∧ (s.mapPages 0 (c.mapRun s.fe.nextCmd)).2.isSome = true := by
  decide +kernel
theorem witness_PagesAreMappedAndRemoved : let c := mapCmd 0x84 0x200000 4; let d := mapCmd 0x84 0x200001 4; let u := mapCmd 0x85 0x11000 2
    let s := runs c tabled
    Runs s 1 0x84 c ∧ s.mapCheck c (c.mapRun s.fe.nextCmd) = 0 ∧ Runs (runs d tabled) 1 0x84 d ∧ d.f 32 0 64 % (d.mapRun 0).page ≠ 0 ∧
      Runs (runs u) 1 0x85 u ∧ u.f 32 0 64 % (u.mapRun 0).page = 0 ∧ u.f 32 0 64 + u.f 48 0 32 * (u.mapRun 0).page ≤ 2 ^ 56 ∧
      (runs u).readsThrough 0 (u.f 52 0 8) (u.f 32 0 64) (u.f 32 0 64 + u.f 48 0 32 * (u.mapRun 0).page) = false ∧
      (∀ o ∈ (dev.part 0).maps, o.dva % o.page = 0) := by decide +kernel

/-- A table in which byte values 1 and 2 have one-bit codes. -/
def tableImage : List Byte := leBytes 128 0x0110 ++ leBytes 128 1
def tableCmd (id dva : Nat) : Cmd := cmd 0x31 (dva + 2 ^ 64 * id)

theorem witness_DecodeTablesLoad : let c := tableCmd 7 0x10000; let d := tableCmd 8 0x10000; let e := tableCmd 7 0x10004
    let s := withBytes (runs c) 0 tableImage
    Runs s 1 0x31 c ∧ c.phase = .started ∧ s.ownsTable 0 (c.f 40 0 6) = true ∧ c.f 32 0 64 % 64 = 0 ∧
      c.missing (s.hostRanges (s.accOf c 31 true) (c.f 32 0 64) 256) = [] ∧
      isOk (s.readDva (s.accOf c 31 true) (c.f 32 0 64) 256) = true ∧ tableValid tableImage = true ∧ s.tableRefs (c.f 40 0 6) = 0 ∧
      tableValid (leBytes 256 0) = false ∧ s.ownsTable 0 (d.f 40 0 6) = false ∧ e.f 32 0 64 % 64 ≠ 0 := by decide +kernel
theorem witness_DecodeTablesLoad_wait : let c := { tableCmd 7 0x10000 with phase := .running, block := some tableImage, infinite := true }
    let p := { cmd 0x30 0 (some (moveBlock 0 1 0)) with id := 2 }
    let s := withBytes (runs (tableCmd 7 0x10000)) 0x1000 (leBytes 8 0x14000 ++ leBytes 8 0x15000 ++ leBytes 4 16 ++ leBytes 12 0 ++
      leBytes 4 1 ++ leBytes 4 64 ++ leBytes 8 0 ++ leBytes 1 7 ++ leBytes 15 0)
    Runs (runs c) 1 0x31 c ∧ c.phase = .running ∧ (runs c).tableRefs (c.f 40 0 6) = 0 ∧
      (let d := { c with infinite := false }; Runs (runs d) 1 0x31 d ∧ d.deadline < (runs d).now) ∧ c.f 32 0 64 < 2 ^ 56 ∧
      ({ s with fe := { s.fe with cmds := s.fe.cmds ++ [p] } } : State).tableRefs (c.f 40 0 6) ≠ 0 := by decide +kernel

/-! ## Hypotheses met: the matrix fabric -/

theorem witness_CheckWordFindsSingleErrors : (leBytes 128 1).length = 128 ∧ (2 : Byte) ≠ (leBytes 128 1)[127]?.getD 0 ∧
    (leBytes 128 1)[0]?.getD 0 ≠ (leBytes 128 1)[127]?.getD 0 := by decide +kernel
theorem witness_BlocksDecodeToWhatWasCompressed : tableValid tableImage = true ∧ (leBytes 128 0).length = 128 ∧
    (compressBlock (some (63, 3, tableImage)) (leBytes 128 0)).1 = 0 ∧ (compressBlock (some (63, 3, tableImage)) (leBytes 128 1)).1 = 2 ∧
    (compressBlock (some (63, 3, tableImage)) (List.replicate 128 255)).1 = 1 := by decide +kernel

/-- FABRIC_MATMUL of 1 by 64 by 1, both operands E4M3. -/
def matmul : Cmd := cmd 0x20 0 (some (desc 0x10000 1 64 3 ++ desc 0x11000 1 64 3 ++ desc 0x12000 1 1 0 ++ leBytes 32 0))
/-- Its arguments. -/
def fabArgs : FabArgs := got { a := noMove.src, w := noMove.src, d := noMove.src, grouped := false, metaAt := 0, bitmap := 0, tileM := 0,
                               order := 0, rnd := .rne, ieee := false, offsets := 0, tokens := 0, experts := 0, cap := 0, gate := false,
                               wStep := 0, sStep := 0, mStep := 0, bStep := 0 } ((runs matmul).parseFab matmul)
/-- Its tile in the dispenser. -/
def dispensing : State := after (exec (.fabricMatmul 1) (runs matmul))
/-- Its tile in core 0. -/
def tiled : State := after (exec (.tileRequest 0 false false) dispensing)
/-- A grouped one of a single expert of one row, its row offsets at 0x13000. -/
def grouped : Cmd := cmd 0x21 0 (some (desc 0x10000 1 64 3 ++ desc 0x11000 1 64 3 ++ desc 0x12000 1 1 0 ++ leBytes 32 0 ++
  leBytes 8 0x13000 ++ leBytes 8 0 ++ leBytes 4 1 ++ leBytes 4 1 ++ leBytes 40 0))

theorem witness_TilesCoverTheOutputOnce : fabArgs.n = 1 ∧ fabArgs.tilesOf 1 = 1 ∧
    (fabArgs.tileAt 1 0 [(0, 0, 1)] 0).isSome = true := by decide +kernel
theorem witness_FabricCommandsRunAsTiles : let s := runs matmul
    Runs s 1 0x20 matmul ∧ matmul.phase = .started ∧ isOk (s.parseFab matmul) = true ∧ s.noArray 0 = false ∧ s.fabTurn matmul = true ∧
      isOk (s.openTensor (s.accOf matmul 31 false) fabArgs.a) = true ∧
      (let w := { s with fe := { s.fe with cmds := { matmul with id := 0 } :: s.fe.cmds } }; Runs w 1 0x20 matmul ∧ w.fabTurn matmul = false) ∧
      (got [] (s.readExperts (s.accOf matmul 31 false) fabArgs)).foldl (fun n e => n + fabArgs.tilesOf e.2.2) 0 = 1 ∧
      (let b := ((s.setReg (Reg.arrayStatus 0) 0).setReg (Reg.arrayStatus 1) 0).setReg (Reg.arrayStatus 2) 0
       Runs b 1 0x20 matmul ∧ b.noArray 0 = true ∧ isOk (b.parseFab matmul) = true) := by decide +kernel
theorem witness_FabricCommandsRunAsTiles_grouped : let s := withBytes (runs grouped) 0x3000 (leBytes 4 0 ++ leBytes 4 1)
    Runs s 1 0x21 grouped ∧ isOk (s.parseFab grouped) = true ∧
      isOk (s.readExperts (s.accOf grouped 31 false) (got fabArgs (s.parseFab grouped))) = true ∧ s.fabTurn grouped = true ∧
      got [] ((runs grouped).readExperts (s.accOf grouped 31 false) (got fabArgs (s.parseFab grouped))) = [] := by decide +kernel
/-- As many tiles as a core's output buffer holds. -/
def filled (s : State) : State := s.updCore 0 fun k => { k with tiles := [{ cmd := 1, num := 5, rows := 2048, live := true }] }
theorem witness_FabricCommandsRunAsTiles_request : let s := dispensing; let c := { matmul with phase := .running }
    let o := (s.fabOp 0 1).getD { cmd := 0 }; let t := (fabArgs.tileAt 1 0 o.experts 0).getD { cmd := 0, num := 0 }
    s.coreOwner 0 = some 0 ∧ s.active = true ∧ (s.part 0).resetDue = false ∧ lowestTile (s.part 0).fab = some (1, 0) ∧
      s.cmd? 1 = some c ∧ (s.fabOp 0 1).isSome = true ∧ isOk (s.parseFab c) = true ∧
      (fabArgs.tileAt 1 0 o.experts 0).isSome = true ∧ s.canRun c = true ∧ s.coreHeld c 0 = false ∧ s.takesTiles 0 = true ∧
      (s.core 0).tiles.length < 2 ∧ s.hasRoom 0 fabArgs t.rows = true ∧ (filled s).hasRoom 0 fabArgs t.rows = false ∧
      lowestTile ((filled s).part 0).fab = some (1, 0) ∧ (s.setReg (Reg.arrayStatus 0) 0).takesTiles 0 = false ∧
      (s.updCore 0 fun k => { k with tiles := [{ cmd := 1, num := 5, live := true }] }).hasRoom 0 fabArgs t.rows = true ∧
      (dev.setReg (Reg.arrayStatus 2) 0).arrays 2 = [] := by decide +kernel
theorem witness_FabricCommandsRunAsTiles_steal : let t := (tiled.core 0).tiles.headD { cmd := 0, num := 0 }
    let s := tiled.setTiles 0 [t, { t with num := 1 }]; let c := (s.cmd? 1).getD matmul
    s.coreOwner 0 = some 0 ∧ s.coreOwner 2 = some 0 ∧ s.active = true ∧ (s.part 0).resetDue = false ∧ lowestTile (s.part 0).fab = none ∧
      s.takesTiles 2 = true ∧ (s.core 2).tiles = [] ∧ (s.core 0).tiles = [t, { t with num := 1 }] ∧ 2 ≤ (s.core 0).tiles.length ∧
      s.cmd? 1 = some c ∧ s.canRun c = true ∧ s.coreHeld c 2 = false := by decide +kernel

/-- A matmul of eight rows, and its tile in core 0, a token after its first row slot. -/
def matmul8 : Cmd := cmd 0x20 0 (some (desc 0x10000 8 64 3 ++ desc 0x11000 1 64 3 ++ desc 0x12000 8 1 0 ++ leBytes 32 0))
def cut : State := after (exec (.passSplit 0 1) (after (exec (.tileRequest 0 false false) (after (exec (.fabricMatmul 1) (runs matmul8))))))
/-- The pass that core 0 runs. -/
def passOf (s : State) : Cmd × FabArgs × Tile × Nat := (s.running 0).getD (matmul, fabArgs, { cmd := 0, num := 0 }, 0)
/-- The rows of its part. -/
def rowsOf (s : State) : List (List (Val × Val)) :=
  let p := passOf s
  got [] (s.partWindows (s.accOf p.1 0 false) p.2.1 p.2.2.1 p.2.2.2)
/-- What its check finds of some faults. -/
def failsOf (s : State) (fs : List PassFault) : List Fail :=
  let p := passOf s
  let a := s.accOf p.1 0 false
  ((s.countAttempt a p.1 0 p.2.1 p.2.2.1 p.2.2.2).noteRows a p.1 0 p.2.1 p.2.2.1 p.2.2.2 (rowsOf s)).partFails 0 p.2.1 p.2.2.1 fs (rowsOf s)
/-- Array 3 failed its first attempt. -/
def failedOnce : State := cut.setTiles 0 [{ (passOf cut).2.2.1 with failed := [{ array := some 3 }] }]

theorem witness_PassesCheckAndArraysFence : let p := passOf cut; let t := p.2.2.1
    cut.running 0 = some p ∧ (cut.core 0).expanding = false ∧ isOk (cut.partWindows (cut.accOf p.1 0 false) p.2.1 t p.2.2.2) = true ∧
    refetches [.sum 3 0 0 0 1] = [] ∧ failsOf cut [] = [] ∧ t.failed = [] ∧ t.cuts = [1] ∧ t.slots = 2 ∧ t.arrs = [0, 1, 2, 3] ∧
    (failsOf cut [.sum 3 0 0 0 1]).map (·.array) = [some 3] ∧ isOk (cut.passCols (cut.accOf p.1 0 false) p.2.1 t p.2.2.2) = true ∧
    (cut.updCore 0 fun k => { k with lanes := [(0, [7])] }).running 0 = some p ∧
    ((cut.updCore 0 fun k => { k with lanes := [(0, [7])] }).core 0).expanding = true := by decide +kernel
theorem witness_PassesCheckAndArraysFence_replay : let t := (passOf failedOnce).2.2.1
    failedOnce.running 0 = some (passOf failedOnce) ∧ (failedOnce.core 0).expanding = false ∧ t.failed.map (·.array) = [some 3] ∧
    (failsOf failedOnce [.sum 3 0 0 0 1]).map (·.array) = [some 3] ∧
    isOk (failedOnce.partWindows (failedOnce.accOf (passOf failedOnce).1 0 false) (passOf failedOnce).2.1 t (passOf failedOnce).2.2.2) = true ∧
    (let s := after (exec (.tileRequest 0 false false) (after (exec (.fabricMatmul 1) (runs matmul8)))); let u := (passOf s).2.2.1
     s.running 0 = some (passOf s) ∧ (u.cuts.getLast?).getD u.lo < 1 ∧ 1 < u.slots) := by decide +kernel
theorem witness_PassesCheckAndArraysFence_check :
    let w : List (Nat × Val) := [(127, .fin false 3 0), (127, .fin true 1 0)]
    let r : List (Val × Val) := [(.fin false 2 0, .fin false 1 0), (.fin false 1 1, .fin false 1 0)]
    w.length = 2 ∧ r.length = 2 ∧ 2 ≤ fabArgs.kt ∧ 0 < fabArgs.group ∧ 0 < ceilDiv 2 fabArgs.group ∧
    ¬((2 : Int) ^ 32 ∣ 1 ∧ (255 : Int) ∣ 1) ∧ ¬((2 : Int) ^ 32 ∣ 2 ^ 32 ∧ (255 : Int) ∣ 2 ^ 32) := by decide +kernel
/-- Core 0's lane 0 waits for table 7. -/
def waitsFor (s : State) : State := s.updCore 0 fun k => { k with lanes := [(0, [7])] }
theorem witness_PassesCheckAndArraysFence_slots : let s := waitsFor dev
    let full := { ([0, 1, 2, 3].foldl (fun (s : State) i => s.setFld (Reg.slots 0) (8 * i) 8 (128 + 10 + i)) s) with
      cores := [(0, { slotUse := [2, 0, 1, 3], lanes := [(0, [7])] })] }
    s.active = true ∧ (s.core 0).waits.contains 7 = true ∧ s.slotFor 0 = some 0 ∧ (s.core 0).lanes.wf (fun _ => []) = true ∧
      s.slotFull 0 0 = false ∧ (∀ i, i < 4 → full.slotFull 0 i = true) ∧ full.slotFor 0 = some 3 ∧
      (full.core 0).waits.contains 7 = true ∧ (full.core 0).lanes.wf (fun _ => []) = true := by decide +kernel
theorem witness_PassesCheckAndArraysFence_fence : Reachable dev 0 (Reg.arrayFence 23) ∧
    Reachable vfDev 1 (Reg.arrayFence 0) ∧ dev.active = true ∧
    (let s := dev.updCore 2 fun k => { k with fencePend := 1 }
     (s.core 2).fencePend ≠ 0 ∧ (s.core 2).tiles = [] ∧ s.fld (Reg.arrayStatus 2) 0 4 &&& (15 - (s.core 2).fencePend % 16) ≠ 0) ∧
    (dev.updCore 23 fun k => { k with fencePend := 15 }).coreOwner 23 = none := by decide +kernel

/-! ## Hypotheses met: the vector engine -/

/-- VECTOR_RUN on core 2. -/
def vrun (limit : Nat := 0) : Cmd := { cmd 0x22 (at_ 12 4 + at_ 20 limit) with phase := .running }
/-- A program of one instruction that declares every region. -/
def program (w : Nat) : List Byte := leBytes 2 1 ++ leBytes 2 1 ++ leBytes 4 1 ++ leBytes 1 127 ++ leBytes 55 0 ++ leBytes 8 w
/-- Core 2 stands at the instruction; M1 names lane 0, and S1 and S2 hold 0x400000 and 16. -/
def at2 (w : Nat) (c : Cmd := vrun) : State :=
  ((runs c).updPart 0 fun x => { x with progs := [(0, { image := program w })] }).updCore 2 fun k => { k with
    run := some { cmd := 1 }, m := [(1, 1)], x := [(1, 0x400000), (2, 16)],
    v := [(3, List.replicate 512 0x3F800000), (4, (List.range 512).map (BitVec.ofNat 32))] }
def run2 : VRun := { cmd := 1 }

/-- Lane instructions of both forms and types. -/
def va3 : VA := { core := 2, mask := 1, vd := 31, va := 3, vb := 4, vc := 3 }
def vaImm : VA := { va3 with imm := some 0x40000000, zm := true }
def vaInt : VA := { va3 with int := true, mask := 0 }

theorem witness_LaneInstructions : (∀ v ∈ [va3, vaImm, vaInt], ∀ op ∈ ([0x01, 0x05, 0x13] : List Nat), let s := at2 (vaWord op v)
    s.lanesOk = true ∧ vaFits v = true ∧ v.chk = .ok ∧ AtInsn s 2 vrun run2 (vaWord op v)) ∧ va3.imm = none ∧ vaInt.imm = none ∧
    ((at2 0).mreg 2 1).getLsbD 511 = false ∧ ((at2 0).mreg 2 0).getLsbD 511 = true := by decide +kernel
theorem witness_FpRoundTripAndSpecialCases : (match fmtOf 3 with
    | some f => decide (0xFE < 2 * f.mag) && f.decode 0xFE != .nan | none => false) = true ∧
    isNan32 0x7FC00001 = true ∧ isNan32 0x7F800000 = false ∧ 0x80000000 < 0x80000001 ∧ 0xFF7FFFFF < 0xFF800000 ∧ 0x4F000000 ≤ 0x7F800000 := by
  decide +kernel
theorem witness_MasksReductionsAndSelections : let m : VA := { core := 2, vd := 7, va := 1, vb := 3 }; let n := { m with mask := 1, int := true }
    let z := { m with mask := 2, int := true }
    (∀ v ∈ [m, n], ∀ op ∈ ([0x08, 0x0B, 0x0C, 0x28, 0x2A, 0x2C, 0x34, 0x37] : List Nat),
      (at2 (vaWord op v)).lanesOk = true ∧ vaFits v = true ∧ v.chk = .ok ∧ AtInsn (at2 (vaWord op v)) 2 vrun run2 (vaWord op v)) ∧
      m.imm = none ∧ n.int = true ∧ m.int = false ∧ ((at2 0).mreg 2 1).getLsbD 0 = true ∧ AtInsn (at2 (vaWord 0x2A z)) 2 vrun run2 (vaWord 0x2A z) ∧
      (∀ k ∈ List.range 512, ((at2 0).mreg 2 2).getLsbD k = false) ∧
      (let x := { m with imm := some 511 }; vaFits x = true ∧ AtInsn (at2 (vaWord 0x31 x)) 2 vrun run2 (vaWord 0x31 x)) := by decide +kernel

/-- A load or store of lane 0 at local S1, of a format. -/
def vl (fmt : BitVec 16) : VL := { core := 2, mask := 1, vr := 5, sbase := 1, vidx := 4, fmt }
/-- A scalar instruction. -/
def vs (sa sb : Nat) (imm : Word := 0) : VS := { core := 2, sd := 31, sa, sb, imm }

theorem witness_VectorLoadsAndStores_load : (∀ g ∈ [false, true], let v := vl 0; let w := vlWord (if g then 0x62 else 0x60) v; let s := at2 w
    let es := [0].map (fun k => elemAt (vlBase v s) (vlBits v) (vlIndex g (s.vreg 2 v.vidx) k))
    let r := s.vecRead (s.accOf vrun 2 false) 2 false (es.map (fun e => (e.1, elemLen e.2 (vlBits v))))
    s.lanesOk = true ∧ vlFits v = true ∧ v.chk = .ok ∧ AtInsn s 2 vrun run2 w ∧ vlMay g v (num (s.runImage vrun run2) 8 1) s = true ∧
      (List.range 512).filter (fun k => (s.mreg 2 v.mask).getLsbD k) = [0] ∧ vlSf v = 0 ∧
      (match r.2 with | .ok bs => bs.length == 1 | .error _ => false) = true ∧ r.1.lanesOk = true) ∧
    (let v := { vl 0 with sbase := 2 }
     AtInsn (at2 (vlWord 0x60 v)) 2 vrun run2 (vlWord 0x60 v) ∧
       vlMay false v (num ((at2 (vlWord 0x60 v)).runImage vrun run2) 8 1) (at2 (vlWord 0x60 v)) = false) := by decide +kernel
theorem witness_VectorLoadsAndStores_store : (∀ g ∈ [false, true], let v := vl 3; let w := vlWord (if g then 0x63 else 0x61) v; let s := at2 w
    let st := vlStored g v vrun (num (s.runImage vrun run2) 8 1) s
    vlFits v = true ∧ v.chk = .ok ∧ AtInsn s 2 vrun run2 w ∧ vlMay g v (num (s.runImage vrun run2) 8 1) s = true ∧
      ovfOk (vlElem v) v.ieee = true ∧ vrun.strictNan = false ∧
      ((s.markStore vrun).vecWrite (s.accOf vrun 2 false) 2 false (st.writes v s)).2.isNone = true) ∧
    (let v := { vl 3 with ieee := true }
     AtInsn (at2 (vlWord 0x61 v)) 2 vrun run2 (vlWord 0x61 v) ∧ vlFits v = true ∧ ovfOk (vlElem v) v.ieee = false ∧
       vlMay false v (num ((at2 (vlWord 0x61 v)).runImage vrun run2) 8 1) (at2 (vlWord 0x61 v)) = true) := by decide +kernel
theorem witness_VectorLoadsAndStores_scalar : let v := vs 1 1; let u := vs 1 1 1
    vsFits v = true ∧ v.chk = .ok ∧ (∀ op ∈ ([0x73, 0x74] : List Nat), AtInsn (at2 (vsWord op v)) 2 vrun run2 (vsWord op v) ∧
      AtInsn (at2 (vsWord op u)) 2 vrun run2 (vsWord op u) ∧
      regionOk (num ((at2 (vsWord op v)).runImage vrun run2) 8 1) false none 0x400000 8 = true ∧
      (at2 (vsWord op v)).sramBad (sramKey 2 0x400000 / 16) = false ∧ (at2 (vsWord op v)).mem.sramOne = [] ∧
      ((at2 (vsWord op v)).sreg 2 1 + (0 : Word).signExtend 64).toNat = 0x400000 ∧
      ((at2 (vsWord op u)).sreg 2 1 + (1 : Word).signExtend 64).toNat % 8 ≠ 0) := by decide +kernel
theorem witness_VectorLoadsAndStores_rotate : let v := { vs 1 2 4 with sd := 0 }; let s := at2 (vsWord 0x68 v); let a := s.accOf vrun 2 false
    let m := s.rotMask vrun v (num (s.runImage vrun run2) 8 1) (2 ^ (v.imm.toNat % 16))
    let b := got [] (m.1.readSram a 2 0x400000 64)
    let out := (rotateRow (v.imm.toNat % 16) (fun _ => false) ((unpack 32 16 b).map ofF32)).map (convElem 0 .rne true)
    AtInsn s 2 vrun run2 (vsWord 0x68 v) ∧ vsFits v = true ∧ (s.sreg 2 2).toNat = 16 ∧ (s.sreg 2 1).toNat % 4 = 0 ∧
      regionOk (num (s.runImage vrun run2) 8 1) false none 0x400000 (4 * 16) = true ∧ 16 % 2 ^ (v.imm.toNat % 16) = 0 ∧
      (s.sreg 2 v.sd).toNat = 0 ∧ isOk m.2 = true ∧ isOk (m.1.readSram a 2 0x400000 64) = true ∧ vrun.strictNan = false ∧
      (((m.1.fixLocal 2 [(0x400000, 64)]).markStore vrun).writeSram a 2 0x400000 (pack 32 (out.map (·.1)))).2.isNone = true := by
  decide +kernel
theorem witness_ScalarsBranchesAndRuns_scalars : let v := vs 1 2 0xFFFFFFFF
    vsFits v = true ∧ v.chk = .ok ∧ (∀ op ∈ ([0x70, 0x71, 0x72, 0x75, 0x78, 0x7F] : List Nat),
      AtInsn (at2 (vsWord op v)) 2 vrun run2 (vsWord op v)) ∧ v.cond = 0 ∧
      (let b := { v with cond := 1 }; vsFits b = true ∧ AtInsn (at2 (vsWord 0x78 b)) 2 vrun run2 (vsWord 0x78 b) ∧
        (at2 0).sreg 2 1 ≠ (at2 0).sreg 2 2) ∧
      (let s := (at2 0 (vrun 5)).updCore 2 fun k => { k with run := some { run2 with count := 5 } }
       (s.core 2).run = some { run2 with count := 5 } ∧ (s.cmd? 1).isSome = true ∧ s.canRun (vrun 5) = true ∧ (vrun 5).insnLimit ≤ 5) := by
  decide +kernel
theorem witness_ScalarsBranchesAndRuns_runs : let c := { vrun with phase := .started, traced := [] }; let d := cmd 0x22 0; let e := cmd 0x22 (at_ 12 8)
    let s := fun c => (runs c).updPart 0 fun x => { x with progs := [(0, { image := program (vsWord 0x7F (vs 0 0)) })] }
    Runs (s c) 1 0x22 c ∧ c.phase = .started ∧ (((s c).part 0).progs.get (fun _ => {}) (c.f 48 0 8)).image ≠ [] ∧ c.f 44 0 32 = 4 ∧
      (∀ k ∈ ones (c.f 44 0 32) 32, k ∈ (s c).coresOf 0 ∧ (s c).fld (Reg.vecFault k) 0 1 = 0) ∧
      (s c).runReady c (ones (c.f 44 0 32) 32) = [2] ∧ c.waitInvalidate = false ∧ Runs (runs c) 1 0x22 c ∧
      (((runs c).part 0).progs.get (fun _ => {}) (c.f 48 0 8)).image = [] ∧ Runs (s d) 1 0x22 d ∧ d.f 44 0 32 = 0 ∧ Runs (s e) 1 0x22 e ∧
      (∃ k ∈ ones (e.f 44 0 32) 32, k ∉ (s e).coresOf 0) ∧ Runs ((s c).setReg (Reg.vecFault 2) 1) 1 0x22 c := by decide +kernel
theorem witness_ScalarsBranchesAndRuns_load : let c := cmd 0x86 (at_ 0 0x10000 + at_ 8 72); let img := program (vsWord 0x7F (vs 0 0))
    let s := withBytes (runs c) 0 img; let z := runs c
    Runs s 1 0x86 c ∧ 64 ≤ c.f 40 0 32 ∧ c.f 40 0 32 ≤ 65600 ∧ c.f 32 0 64 < 2 ^ 56 ∧
      c.missing (s.hostRanges (s.accOf c 31 true) (c.f 32 0 64) (c.f 40 0 32)) = [] ∧
      got [] (s.readDva (s.accOf c 31 true) (c.f 32 0 64) (c.f 40 0 32)) = img ∧ imageFault img = none ∧ (s.part 0).progs.length < 256 ∧
      storeUsed (s.part 0).progs + alignUp (c.f 40 0 32) 64 ≤ 0x1000000 * s.nSlices 0 ∧
      imageFault (got [] (z.readDva (z.accOf c 31 true) (c.f 32 0 64) (c.f 40 0 32))) = some 0xFFFFFF := by decide +kernel

/-! ## Hypotheses met: sequences, pages and attention -/

/-- KV pool 0 of four pages of one layer and one head of 64 E4M3 elements; page 0 is in use. -/
def pool0 : Pool := { asid := 1, base := 0x20000, metaAt := 0x100000, pages := 4, layers := 1, heads := 1, dim := 64, tag := 3, log2 := 10,
                      taken := [0, 1, 2, 3], stack := [1, 2, 3], refs := [(0, 2)] }
/-- Address space 1 maps 4 MiB; sequence 3 holds one full page, 4 is empty, 6 steps with one token, the
first of its second page. At 0x19000 a list that
names sequence 4 with one token, at 0x19040 one that names sequence 6, at 0x19080 one whose entry fails (sequence 9 is free). -/
def kv (c : Cmd) : State := runs c (withBytes (dev.updPart 0 fun x => { x with
    maps := [⟨1, 0x10000, 1024, false, 0, false, true, true, false, 0⟩]
    pools := [(0, pool0), (2, { pool0 with pages := 1 })]
    seqs := [(3, { state := 1, length := 16, maxTok := 64, list := 0x18000, asid := 1, count := 1 }),
             (4, { state := 1, maxTok := 64, list := 0x18100, asid := 1 }),
             (6, { state := 2, length := 16, maxTok := 64, run := 1, list := 0x18200, asid := 1, count := 2 })] })
  0x9000 (leBytes 4 4 ++ leBytes 4 1 ++ leBytes 56 0 ++ leBytes 4 6 ++ leBytes 4 1 ++ leBytes 56 0 ++ leBytes 4 9 ++ leBytes 4 1))
/-- The state a KV work leaves. -/
def kvLeft {α : Type} (s : State) : Except AccErr (α × State) → State
  | .ok r => r.2
  | .error _ => s
def seqCmd (op lo hi n list : Nat) : Cmd := cmd op (lo + 2 ^ 32 * hi + 2 ^ 64 * n + 2 ^ 128 * list)
/-- A pool block with base 0x40000 and metadata at 0x200000. -/
def poolBlock : List Byte := leBytes 8 0x40000 ++ leBytes 8 0x200000 ++ leBytes 4 1 ++ leBytes 1 1 ++ leBytes 1 1 ++ leBytes 2 64 ++
  leBytes 1 3 ++ leBytes 2 0 ++ leBytes 1 10 ++ leBytes 36 0
/-- POOL_DEFINE (`kind` 1) and POOL_REMOVE (2) of pool `i`. -/
def poolCmd (kind i : Nat) (b : List Byte := poolBlock) : Cmd := cmd 0x82 (at_ 17 kind + at_ 18 i) (some b)

theorem witness_SequencesPoolsAndPrefixes_create :
    let c := seqCmd 0x38 32767 0 2097152 0x18300; let d := seqCmd 0x38 32768 0 64 0x18300; let e := seqCmd 0x38 3 0 64 0x18300
    let f := seqCmd 0x38 7 1 64 0x18300; let g := seqCmd 0x38 7 0 64 0x18301
    (kv c).kvTurn c = true ∧ Runs (kv c) 1 0x38 c ∧ listOk (c.f 48 0 64) = true ∧ c.f 32 0 18 < (kv c).seqIds c.part ∧
      ((kv c).seq c.part (c.f 32 0 18)).state = 0 ∧ ((kv c).pool c.part (c.f 36 0 4)).pages ≠ 0 ∧ c.f 40 0 32 = 2097152 ∧
      Runs (kv d) 1 0x38 d ∧ (kv d).seqIds d.part ≤ d.f 32 0 18 ∧ Runs (kv e) 1 0x38 e ∧ ((kv e).seq e.part (e.f 32 0 18)).state ≠ 0 ∧
      Runs (kv f) 1 0x38 f ∧ ((kv f).pool f.part (f.f 36 0 4)).pages = 0 ∧ Runs (kv g) 1 0x38 g ∧ listOk (g.f 48 0 64) = false := by
  decide +kernel
/-- Whether writes of an access land: one stack in service, its ZEROED and poison gone; one writable mapping of all of it. -/
def landing (s : State) (a : Acc) : Bool :=
  decide (a.epoch = s.epoch a.part) && decide ((s.part a.part).maps = [⟨a.asid, 0x10000, 1024, false, 0, false, true, true, false, 0⟩]) &&
    (s.part a.part).tables.isEmpty &&
    (s.part a.part).sealed.isEmpty && decide (s.stacksOf a.part = [0]) && decide (s.fld (Reg.memStatus 0) 8 1 = 0) &&
    !s.offline 0 && s.mem.hbmBad.isEmpty && s.mem.hbmOne.isEmpty && !a.user

theorem landing_hbm (s : State) (a : Acc) (x : List Host.Cell) : landing { s with mem := { s.mem with hbm := x } } a = landing s a := rfl

theorem landing_map (s : State) (a : Acc) (d : Nat) (hm : (s.part a.part).maps = [⟨a.asid, 0x10000, 1024, false, 0, false, true, true, false, 0⟩])
    (h1 : 0x10000 ≤ d) (h2 : d < 0x410000) : s.mapping a d = some ⟨a.asid, 0x10000, 1024, false, 0, false, true, true, false, 0⟩ := by
  have h3 : Mapping.covers ⟨a.asid, 0x10000, 1024, false, 0, false, true, true, false, 0⟩ a.asid d = true := by
    simp only [Mapping.covers, Mapping.page, Bool.and_eq_true, decide_eq_true_eq, beq_self_eq_true, true_and, Bool.false_eq_true, if_false]
    omega
  simp only [State.mapping, hm, List.find?_cons, h3, Nat.zero_le, decide_true, Bool.and_self]

theorem landing_place (s : State) (a : Acc) (h : landing s a = true) (d n : Nat) (h1 : 0x10000 ≤ d) (h2 : d < 0x410000) :
    s.translate a d n true = .ok (.hbm (d - 0x10000) (d - 0x10000), false) := by
  simp only [landing, Bool.and_eq_true, decide_eq_true_eq, List.isEmpty_iff, Bool.not_eq_true'] at h
  obtain ⟨⟨⟨⟨⟨⟨⟨⟨⟨-, hm⟩, ht⟩, hs⟩, hst⟩, -⟩, -⟩, -⟩, -⟩, hu⟩ := h
  have hw : ∀ m, s.walked a m d true = .ok m := fun m => by simp only [State.walked, ht, List.find?_nil]
  have hz : s.sealedHit a.part (d - 0x10000) n = false := by simp only [State.sealedHit, hs, List.any_nil]
  have hd : s.dpaOf a.part (d - 0x10000) = some (d - 0x10000) := landing_dpa s _ _ hst (by unfold usable; omega)
  simp only [State.translate, landing_map s a d hm h1 h2, hw, hz, hd, hu, Bool.not_true, Bool.and_false, Bool.false_eq_true, if_false,
    Bool.false_and, Nat.zero_add]

theorem landing_piece (s : State) (a : Acc) (h : landing s a = true) (d : Nat) (bs : List Byte) (h1 : 0x10000 ≤ d) (h2 : d < 0x410000) :
    (s.writePiece a d bs).2 = none ∧ landing (s.writePiece a d bs).1 a = true := by
  have hall := h
  simp only [landing, Bool.and_eq_true, decide_eq_true_eq, List.isEmpty_iff, Bool.not_eq_true'] at h
  obtain ⟨⟨⟨⟨⟨⟨⟨⟨⟨he, -⟩, -⟩, -⟩, -⟩, hz⟩, ho⟩, hb⟩, h1w⟩, -⟩ := h
  have hd : (d - 65536) / stackBase 1 = 0 := Nat.div_eq_of_lt (by unfold stackBase; omega)
  have hw : s.writePiece a d bs = (s.putHbm (d - 65536) bs, none) := by
    simp [State.writePiece, landing_place s a hall d _ h1 h2, State.writeHbm, he, hd, ho, State.hbmBad, hb, Tbl.get]
  have hp : s.putHbm (d - 65536) bs = { s with mem := { s.mem with hbm := s.mem.hbm.writeN Config.blankByte (d - 65536) bs } } := by
    simp [State.putHbm, hd, hz, hb, h1w, Tbl.clear]
  rw [hw, hp]
  exact ⟨rfl, (landing_hbm s a _).trans hall⟩

theorem landing_pieces (fuel : Nat) : ∀ (s : State) (a : Acc) (d n : Nat) (bs : List Byte), landing s a = true → 0x10000 ≤ d →
    d + n ≤ 0x410000 → (s.writePieces a (pieces fuel d n) bs).2 = none := by
  induction fuel with
  | zero => intros; rfl
  | succ k ih =>
    intro s a d n bs h h1 h2
    unfold pieces
    split
    · rfl
    · have h3 := landing_piece s a h d (bs.take (min n (64 - d % 64))) h1 (by omega)
      simp only [State.writePieces]
      split
      · next e => rw [e] at h3; exact absurd h3.1 (by simp)
      · next e => rw [e] at h3; exact ih _ a _ _ _ h3.2 (by omega) (by omega)

theorem landing_writes {s : State} {a : Acc} (h : landing s a = true) (d : Nat) (bs : List Byte) (h1 : 0x10000 ≤ d)
    (h2 : d + bs.length ≤ 0x410000) : (s.writeDva a d bs).2 = none := landing_pieces _ s a d _ bs h h1 h2
theorem witness_SequencesPoolsAndPrefixes_pools : let c := poolCmd 1 1; let d := poolCmd 1 0; let e := poolCmd 1 15 (leBytes 64 0)
    let pl := poolOf poolBlock c.asid; let s := kv c
    (Runs s 1 0x82 c ∧ s.kvTurn c = true ∧ c.f 49 0 8 = 1 ∧ (s.pool c.part (c.f 50 0 4)).pages = 0 ∧ poolOk poolBlock = true ∧
      Runs (kv d) 1 0x82 d ∧ ((kv d).pool d.part (d.f 50 0 4)).pages ≠ 0 ∧ Runs (kv e) 1 0x82 e ∧ e.f 50 0 4 = 15 ∧
      poolOk (leBytes 64 0) = false) ∧
    (s.writeDva (s.poolAcc c pl) 0x200000 ((List.range (12 * num poolBlock 16 4)).map (Config.freeByte s.free) ++
        List.replicate (pl.metaBytes - 12 * num poolBlock 16 4) 0)).2 = none := by
  refine ⟨by decide +kernel, landing_writes (by decide +kernel) _ _ (by decide) ?_⟩
  simp only [List.length_append, List.length_map, List.length_range, List.length_replicate]
  decide +kernel
theorem witness_SequencesPoolsAndPrefixes_remove : let c := poolCmd 2 2; let d := poolCmd 2 0; let e := poolCmd 2 15
    Runs (kv c) 1 0x82 c ∧ c.f 49 0 8 = 2 ∧ ((kv c).pool c.part (c.f 50 0 4)).pages ≠ 0 ∧ (kv c).poolUsed c.part (c.f 50 0 4) = false ∧
      Runs (kv d) 1 0x82 d ∧ (kv d).poolUsed d.part (d.f 50 0 4) = true ∧ Runs (kv e) 1 0x82 e ∧
      ((kv e).pool e.part (e.f 50 0 4)).pages = 0 := by decide +kernel
theorem witness_SequencesPoolsAndPrefixes_fork : let c := seqCmd 0x39 3 5 16 0x18300; let d := seqCmd 0x39 3 4 16 0x18300; let s := kv c
    let a := s.seq 0 3; let s1 := kvLeft s (kvPutList c { a with maxTok := 16, list := 0x18300, asid := 1 } 0 [0] s)
    Runs s 1 0x39 c ∧ s.kvTurn c = true ∧ listOk (c.f 48 0 64) = true ∧
      s.forkCheck c.part (c.f 32 0 18) (c.f 36 0 18) (c.f 40 0 32) = 0 ∧ isOk (kvList c a 0 a.count s) = true ∧
      isOk (kvPutList c { a with maxTok := 16, list := 0x18300, asid := 1 } 0 [0] s) = true ∧ isOk (kvAdd c 0 0 [0] s1) = true ∧
      (kvLeft s1 (kvAdd c 0 0 [0] s1)).cmd? 1 = some c ∧ Runs (kv d) 1 0x39 d ∧
      (kv d).forkCheck d.part (d.f 32 0 18) (d.f 36 0 18) (d.f 40 0 32) = 0x0505 := by decide +kernel
theorem witness_SequencesPoolsAndPrefixes_free : let c := seqCmd 0x3A 3 0 0 0; let d := seqCmd 0x3A 6 0 0 0; let e := seqCmd 0x3A 32768 0 0 0
    let s := kv c; let a := s.seq 0 3
    Runs s 1 0x3A c ∧ s.kvTurn c = true ∧ a.state = 1 ∧ isOk (kvList c a 0 a.count s) = true ∧ isOk (kvDrop c 0 a.pool [0] s) = true ∧
      (kvLeft s (kvDrop c 0 a.pool [0] s)).cmd? 1 = some c ∧ Runs (kv d) 1 0x3A d ∧ ((kv d).seq 0 (d.f 32 0 18)).state = 2 ∧
      Runs (kv e) 1 0x3A e ∧ (kv e).seqIds 0 ≤ e.f 32 0 18 := by decide +kernel

/-- KV_RESERVE or STEP_BEGIN over one entry of the lists of `kv`, the results at 0x1A000. -/
def reserve (op list : Nat) : Cmd := cmd op (list + 2 ^ 64 * 0x1A000 + 2 ^ 128)

theorem witness_SequencesPoolsAndPrefixes_reserve : let c := reserve 0x3B 0x19000; let s := kv c
    let es := got [] (s.reserveList c)
    Runs s 1 0x3B c ∧ s.kvTurn c = true ∧ isOk (s.reserveList c) = true ∧
      (s.reserveAll c (s.reg64 (Reg.stepLo 0) (Reg.stepHi 0)) [] es 0x1A000 0).2.2.isNone = true ∧
      (s.reserveAll c (s.reg64 (Reg.stepLo 0) (Reg.stepHi 0)) [] es 0x1A000 0).1.cmd? 1 = some c ∧
      (match kvEntry c 0 0 [] (es.headD []) s with | .ok ((_, done), t) => done && (t.seq 0 4).state == 2 | .error _ => false) = true ∧
      (s.seq 0 4).count = ceilDiv (s.seq 0 4).length 16 := by decide +kernel
theorem witness_SequencesPoolsAndPrefixes_not_reserved : let c := reserve 0x3B 0x19080; let s := kv c; let d := reserve 0x3B 0x19000
    let e := (got [] ((kv d).reserveList d)).headD []
    (match kvEntry c 0 0 [] ((got [] (s.reserveList c)).headD []) s with | .ok ((_, done), _) => !done | .error _ => false) = true ∧
      bits (num e 0 4) 0 18 = 4 ∧ 4 < (kv d).seqIds 0 ∧ ((kv d).seq 0 4).state ≠ 0 ∧ isOk (kvEntry d 0 0 [4] e (kv d)) = true := by
  decide +kernel
theorem witness_StepsOpenAndCommit_begin : let c := reserve 0x04 0x19000; let s := kv c
    let o := (s.openStep c).updCmd 1 fun c => { c with phase := .running }
    let r := o.reserveAll c (o.reg64 (Reg.stepLo 0) (Reg.stepHi 0)) [] (got [] (s.reserveList c)) 0x1A000 0
    Runs s 1 0x04 c ∧ o.kvTurn c = true ∧ s.fld (Reg.part 0) 3 1 = 0 ∧ isOk (s.reserveList c) = true ∧ r.2.1 = 0 ∧
      r.2.2.isNone = true ∧ r.1.cmd? 1 = some { c with phase := .running } ∧ (s.part 0).watches = [] ∧ Runs (s.setFld (Reg.part 0) 3 1 1) 1 0x04 c ∧
      (s.setFld (Reg.part 0) 3 1 1).fld (Reg.part 0) 3 1 = 1 := by decide +kernel
/-- The key of a page of sixteen zero tokens behind salt 0, and `kv` with that page as page 0, known and in the prefix tree. -/
def zeroKey : Nat := chainKey 0 (List.replicate 16 0)
def kvTree (c : Cmd) : State := (withBytes (kv c) 0x10000 (headerBytes 3 16 0 3 2 zeroKey 0)).updPool 0 0 fun x =>
  { x with entries := [{ slot := 4 * x.bucket zeroKey, key := zeroKey, page := 0, parent := noParent, stamp := 0 }] }
theorem witness_SequencesPoolsAndPrefixes_lookup : let c := cmd 0x3C (at_ 0 4 + at_ 4 33 + at_ 8 0x1B000); let d := cmd 0x3C (at_ 0 3 + at_ 4 33)
    let s := kv c; let salt := (s.pool 0 0).salt; let r := kvLookup c 0 0 2 0x1B000 noParent salt s
    Runs s 1 0x3C c ∧ s.kvTurn c = true ∧ c.f 32 0 18 < s.seqIds 0 ∧ (s.seq 0 4).state = 1 ∧ (s.seq 0 4).length = 0 ∧
      c.f 36 0 32 ≠ 0 ∧ c.f 40 0 64 = 0x1B000 ∧ c.f 40 0 64 % 4 = 0 ∧ dvaOk (c.f 40 0 64) = true ∧
      isOk (kvTokens c 0x1B000 16 s) = true ∧ isOk r = true ∧
      (match r with | .ok (h, _) => h.pages == [] | .error _ => false) = true ∧ (s.pool 0 0).entryFor (chainKey salt (List.replicate 16 0)) = none ∧
      ((kvLeft s r).countHits 0 ⟨[], salt, 0⟩).cmd? 1 = some c ∧ Runs (kv d) 1 0x3C d ∧ ((kv d).seq 0 3).length ≠ 0 := by decide +kernel
theorem witness_SequencesPoolsAndPrefixes_hit : let c := cmd 0x3C (at_ 0 4 + at_ 4 17 + at_ 8 0x1B000); let s := kvTree c
    (match kvLookup c 0 0 1 0x1B000 noParent (s.pool 0 0).salt s with
      | .ok (h, t) => h.pages == [0] && isOk (kvPin c 0 4 h t)
      | .error _ => false) = true ∧ Runs s 1 0x3C c ∧ s.kvTurn c = true ∧ (s.seq 0 4).length = 0 := by decide +kernel
theorem witness_SequencesPoolsAndPrefixes_insert : let c := cmd 0x3D 3; let s := kv c; let x := s.seq 0 3
    let r := kvInsert c 0 x.pool [0] noParent x.lastKey s
    Runs s 1 0x3D c ∧ s.kvTurn c = true ∧ x.state = 1 ∧ isOk (kvList c x 0 (x.length / 16) s) = true ∧ isOk r = true ∧
      (kvLeft s r).cmd? 1 = some c := by decide +kernel

/-- KV_APPEND of sequence 6's one row, K at 0x1B000 and V at 0x1B040 with code 3. -/
def append : Cmd := cmd 0x27 0 (some (leBytes 8 0x19040 ++ leBytes 4 1 ++ leBytes 1 0 ++ leBytes 1 3 ++ leBytes 2 0 ++
  desc 0x1B000 1 64 3 ++ desc 0x1B040 1 64 3 ++ leBytes 16 0))
/-- A tensor, where a block holds one. -/
def tensor (s : State) (c : Cmd) (k : Nat) : Tensor := got noMove.src (s.parseTensor c.part (c.block.getD []) k false)

theorem witness_AttentionAppendAndRouting_append : let c := append; let s := kv c; let b := c.block.getD []
    let kt := tensor s c 16; let vt := tensor s c 48; let es := got [] (s.stepList c (num b 0 8) (num b 8 4))
    let xs := s.stepSeqs 0 es [] 0
    let ks := got [] (s.readRows (s.accOf c 0 false) kt none (List.range (stepRows xs)))
    let vs := got [] (s.readRows (s.accOf c 0 false) vt none (List.range (stepRows xs)))
    let r := (s.touch 1 0).appendAll c 3 ((got [] (s.appendJobs c ks vs xs)).flatMap (s.appendPages 0 0)) 0 0
    (s.scaleFlag (s.accOf c 0 false) { kt with rows := 1 } ||| s.scaleFlag (s.accOf c 0 false) { vt with rows := 1 }) = 0 ∧
      (List.range (stepRows xs)).length = 1 ∧ tagOk 3 256 = true ∧ tagOk 9 256 = false ∧ tagOk 9 64 = false ∧
    Runs s 1 0x27 c ∧ num b 14 2 = 0 ∧ num b 80 16 = 0 ∧ isOk (s.parseTensor 0 b 16 false) = true ∧
      isOk (s.parseTensor 0 b 48 false) = true ∧ kt.packed = false ∧ vt.packed = false ∧
      isOk (s.stepList c (num b 0 8) (num b 8 4)) = true ∧ xs.length = 1 ∧
      xs.any (fun x => decide ((s.pool 0 x.seq.pool).layers ≤ num b 12 1)) = false ∧
      xs.any (fun x => !(s.pool 0 x.seq.pool).fits (num b 13 1)) = false ∧ xs.any (fun x => !(s.pool 0 x.seq.pool).fits 1) = true ∧
      s.stepShape 0 xs kt (·.heads) = true ∧ ks.length = 1 ∧ vs.length = 1 ∧ isOk (s.appendJobs c ks vs xs) = true ∧
      r.2.2.2.isNone = true ∧ (c.convStatus r.2.1).1 ≠ 0x0111 ∧ ((r.1.noteConv 0 r.2.1 r.2.2.1).cmd? 1).map (·.op) = some 0x27 := by
  decide +kernel

/-- `kv` with sequence 6's page list and the headers of its pages 0 and 1. -/
def kvPaged (c : Cmd) : State := withBytes (withBytes (withBytes (kv c) 0x8200 (leBytes 8 0x100000000)) 0x10000 (leBytes 2 0x1003)) 0x10840
  (leBytes 2 0x103)
/-- ATTEND_DECODE and ATTEND_PREFILL of sequence 6: query at 0x1B000, output at 0x1C000, scratch at 0x1D000, chunks of `chunk`. -/
def attend (op chunk size : Nat) : Cmd := cmd op 0 (some (leBytes 8 0x19040 ++ leBytes 8 1 ++ desc 0x1B000 1 64 3 ++ desc 0x1C000 1 64 3 ++
  leBytes 8 0x1D000 ++ leBytes 8 size ++ leBytes 4 0x3F800000 ++ leBytes 4 chunk ++ leBytes 24 0))
/-- Its arguments and its list's sequences. -/
def attArgs (s : State) (c : Cmd) : AttArgs := got ⟨0, 0, 0, noMove.src, noMove.src, 0, 0, 0, 0, 0⟩ (s.parseAtt c)
def attRuns (s : State) (c : Cmd) : List StepSeq := s.stepSeqs 0 (got [] (s.stepList c (attArgs s c).list (attArgs s c).count)) [] 0

theorem witness_AttentionAppendAndRouting_decode : let c := attend 0x26 1 1024; let s := kvPaged c; let x := attArgs s c
    let xs := attRuns s c; let qs := got [] (s.attSeqs c x 1 xs 0 0); let d := attend 0x26 0 0
    Runs s 1 0x26 c ∧ c.phase = .started ∧ isOk (s.parseAtt c) = true ∧ x.prob = 0 ∧ x.chunk ≤ 65536 ∧
      isOk (s.stepList c x.list x.count) = true ∧ s.attCheck 0 x xs = 0 ∧ (s.coresOf 0).any s.attServes = true ∧ x.chunk ≠ 0 ∧
      s.chunkPages 0 x xs = 1 ∧ isOk (s.attSeqs c x 1 xs 0 0) = true ∧ scratchNeed s 0 x qs ≤ x.size ∧ s.attTurn c = true ∧
      qs.foldl (fun n q => n + q.chunks) 0 = 2 ∧ (s.zeroRows (s.accOf c 0 false) x.o qs []).2.2.isNone = true ∧
      (let s := kvPaged d; let x := attArgs s d; let xs := attRuns s d
       Runs s 1 0x26 d ∧ isOk (s.parseAtt d) = true ∧ x.chunk = 0 ∧ isOk (s.attSeqs d x (s.chunkPages 0 x xs) xs 0 0) = true ∧
         x.size < scratchNeed s 0 x (got [] (s.attSeqs d x (s.chunkPages 0 x xs) xs 0 0))) := by decide +kernel

/-- The device with that ATTEND_DECODE in its dispenser; its two chunks with core 0; one of them taken by core 2. -/
def attending : State := after (exec (.attendDecode 1) (kvPaged (attend 0x26 1 1024)))
def chunksHeld : State := after (exec (.tileRequest 0 true false) (after (exec (.tileRequest 0 true false) attending)))
/-- The chunk that core 0 runs. -/
def chunkRun : Cmd × AttArgs × AttOp × Nat × AttSeq := (chunksHeld.attRuns 0).getD
  (cmd 0, ⟨0, 0, 0, noMove.src, noMove.src, 0, 0, 0, 0, 0⟩, { cmd := 0 }, 7, ⟨0, 0, 0, [], 0, 0, 0, 0⟩)

theorem witness_AttentionAppendAndRouting_grant : let s := attending; let t := chunksHeld; let c := { attend 0x26 1 1024 with phase := .running }
    s.coreOwner 0 = some 0 ∧ s.active = true ∧ (s.part 0).resetDue = false ∧ s.attServes 0 = true ∧
      lowestChunk (s.part 0).att = some (1, 0) ∧ (s.cmd? 1).map (·.op) = some 0x26 ∧ s.canRun c = true ∧ s.coreHeld c 0 = false ∧
      (s.core 0).chunks = [] ∧ t.coreOwner 2 = some 0 ∧ t.attServes 2 = true ∧ lowestChunk (t.part 0).att = none ∧
      (t.core 0).chunks = [(1, 0), (1, 1)] ∧ (t.core 2).chunks = [] ∧ t.active = true := by decide +kernel
theorem witness_AttentionAppendAndRouting_chunk : let s := chunksHeld; let c := chunkRun.1; let x := chunkRun.2.1
    let q := chunkRun.2.2.2.2; let pl := s.pool 0 q.pool
    (s.attRuns 0).isSome = true ∧ s.canRun c = true ∧ chunkRun.2.2.2.1 = 0 ∧ q.chunks = 2 ∧ q.first = 0 ∧ chunkRun.2.2.1.partials = [] ∧
      (s.chunkData { s.poolAcc c pl with source := 0 } x pl q (chunkRun.2.2.1.chunkPages q 0)).2.isNone = true ∧
      isOk (collect (s.queryRow (s.accOf c 0 false) x.q) ((List.range q.run).map (q.row + ·))) = true ∧ s.pstate 0 ≠ 4 ∧
      (s.part 0).att.map (·.cmd) = [1] := by decide +kernel
theorem witness_AttentionAppendAndRouting_others : 2 ∈ chunksHeld.coresOf 0 ∧ chunksHeld.attServes 2 = true := by decide +kernel
theorem witness_AttentionAppendAndRouting_scratch (bs : List Byte) (h : bs.length ≤ 1024) : let s := chunksHeld
    ((((s.count 0 0x46 (2 * 18)).noteConv 0 0 0).popChunk 0).writeDva (s.accOf chunkRun.1 0 false) 0x1D000 bs).2 = none :=
  landing_writes (by decide +kernel) _ _ (by decide) (by omega)
/-- Whether no counter of a core counts. -/
def noCounts (s : State) (c : Nat) : Bool := (List.range 16).all (fun k => s.fld (Reg.ctrCfg c k) 11 1 == 0)

theorem countIf_quiet {s : State} {c : Nat} (h : noCounts s c = true) (ev : Nat) (ok : Nat → Bool) (n : Nat) : s.countIf c ev ok n = s := by
  have hk : ∀ k ∈ List.range 16, s.ctrSelects c k ev ok = false := fun k hk => by
    have := List.all_eq_true.mp h k hk
    simp only [beq_iff_eq] at this
    simp [State.ctrSelects, this]
  have hf : ∀ ks : List Nat, (∀ k ∈ ks, s.ctrSelects c k ev ok = false) → ks.foldl (fun (acc : State × List Nat) k =>
      if acc.1.ctrSelects c k ev ok then
        let r := acc.1.ctrAdd c k (if s.fld (Reg.ctrCfg c k) 8 2 = 2 then 1 else n)
        (r.1, acc.2 ++ r.2)
      else acc) (s, []) = (s, []) := by
    intro ks
    induction ks with
    | nil => intro _; rfl
    | cons k ks ih =>
      intro hks
      simp only [List.foldl_cons, hks k List.mem_cons_self, Bool.false_eq_true, if_false]
      exact ih fun j hj => hks j (List.mem_cons_of_mem _ hj)
  simp only [State.countIf, State.countRaw, hf _ hk, ite_self, State.ovfTrigger, List.contains_nil, Bool.false_eq_true, and_false, if_false]
  split <;> rfl

theorem prefillCounts_quiet {s : State} {core : Nat} (h : noCounts s core = true) (x : AttArgs) : s.prefillCounts core x = s.draw := by
  have hf : ∀ (es : List Nat) (f : Nat → Nat), es.foldl (fun s' e => s'.count core e (f e)) s = s := by
    intro es f
    induction es with
    | nil => rfl
    | cons e es ih => rw [List.foldl_cons, State.count, countIf_quiet h, ih]
  have hg : ∀ (es : List Nat) (f : Nat → Nat), es.foldl (fun s' e => s'.countPasses core e (f e)) s = s := by
    intro es f
    induction es with
    | nil => rfl
    | cons e es ih => rw [List.foldl_cons, State.countPasses, State.count, countIf_quiet h, countIf_quiet h, ih]
  simp only [State.prefillCounts, hf, hg]

/-- An ATTEND_PREFILL whose query row is NaN. -/
def prefill : Cmd := attend 0x25 16 0
def prefilling : State := withBytes (kvPaged prefill) 0xB000 (List.replicate 64 0x7F)

theorem witness_AttentionAppendAndRouting_prefill : let c := prefill; let s := prefilling; let x := attArgs s c
    let xs := attRuns s c
    Runs s 1 0x25 c ∧ isOk (s.parseAtt c) = true ∧ x.prob ≤ 1 ∧ x.chunk % 16 = 0 ∧ x.chunk ≤ 512 ∧
      isOk (s.stepList c x.list x.count) = true ∧ s.attCheck 0 x xs = 0 ∧ s.noArray 0 = false ∧ s.prefillCore c = some 0 ∧
      s.fabTurn c = true ∧ s.vecTurn c [0] = true ∧ isOk (s.attSeqs c x 1 xs 0 0) = true ∧ c.strictNan = false := by decide +kernel
theorem witness_AttentionAppendAndRouting_prefilled : let c := prefill; let s := prefilling; let x := attArgs s c
    let qs := got [] (s.attSeqs c x 1 (attRuns s c) 0 0); let u := (s.touch 1 0).prefillCounts 0 x
    (match u.prefillSeqs c 0 x qs with | (_, outs, _, e) => outs.isEmpty && e.isNone) = true ∧
      ∀ s1 : State, ((s1.prefillWrote (u.accOf c 0 false) 0 x).putAcross (u.accOf c 0 false) x.o 1 []).2.2.2.isNone = true := by
  have h : noCounts (prefilling.touch 1 0) 0 = true := by decide +kernel
  simp only [prefillCounts_quiet h]
  exact ⟨by decide +kernel, fun _ => rfl⟩

/-- MOE_ROUTE of one token among two experts, the best of them kept: logits at 0x1B000, results from 0x1C000. -/
def route (gate k : Nat) : Cmd := cmd 0x24 0 (some (leBytes 8 0x1B000 ++ leBytes 8 0 ++ leBytes 4 1 ++ leBytes 4 2 ++ leBytes 4 64 ++
  leBytes 4 0 ++ leBytes 8 0 ++ leBytes 8 0x1C000 ++ leBytes 8 0x1C040 ++ leBytes 8 0x1C080 ++ leBytes 8 0x1C0C0 ++ leBytes 1 k ++
  leBytes 1 gate ++ leBytes 22 0))

theorem witness_AttentionAppendAndRouting_route : let c := route 0 1; let s := kv c; let b := c.block.getD []
    let u := [0, 1, 2].foldl (fun s x => s.touch 1 x) s; let a := s.accOf c 0 false; let t := tensor s c 0
    Runs s 1 0x24 c ∧ num b 73 1 / 8 = 0 ∧ num b 74 2 = 0 ∧ num b 80 16 = 0 ∧ num b 24 4 % 64 = 0 ∧ num b 28 2 % 16 ≤ 1 ∧
      isOk (s.parseTensor 0 b 0 false) = true ∧ (∀ x ∈ [num b 40 8, num b 48 8, num b 56 8, num b 64 8], x % 64 = 0 ∧ dvaOk x = true) ∧
      (∀ x ∈ s.coreMask 0 (c.f 44 0 32), (s.coresOf 0).contains x = true) ∧ s.moeCores c = [0, 1, 2] ∧
      s.vecTurn c [0, 1, 2] = true ∧ isOk (u.readTensor a t) = true ∧ num b 32 8 = 0 ∧ num b 72 1 ≤ num b 20 4 ∧
      (let d := route 3 1; Runs (kv d) 1 0x24 d ∧ num (d.block.getD []) 73 1 % 4 = 3) ∧
      (let d := route 0 9; Runs (kv d) 1 0x24 d ∧ 8 < num (d.block.getD []) 72 1) := by decide +kernel
theorem witness_AttentionAppendAndRouting_arrays : let c := route 0 1; let s := withBytes (kv c) 0xB000 (leBytes 4 0x7FC00000)
    let u := [0, 1, 2].foldl (fun s x => s.touch 1 x) s; let a := s.accOf c 0 false; let t := tensor s c 0
    let rows := got [] (u.readTensor a t)
    let xs := capAssigns 0 [] (rows.zipIdx.flatMap (fun (row, i) => tokenAssigns 0 1 false none i (row.map toF32)))
    let arr := moeArrays 2 xs; let ws := [(0x1C000, arr.1), (0x1C040, arr.2.1), (0x1C080, arr.2.2.1), (0x1C0C0, arr.2.2.2)]
    let n := (xs.filter (fun x => x.drop ≠ 0)).length
    (u.writeAll a ws).2.isNone = true ∧ n = 1 ∧
      ((((u.writeAll a ws).1.dropWritten a [0, 1, 2] (ws.map (fun w => (w.1, w.2.length)))).count 0 0x28 n).cmd? 1).map (·.op) = some 0x24 ∧
      ([0, 0x3F800000] : List Nat).any isNan32 = false ∧ ([0x7FC00000, 0] : List Nat).any isNan32 = true := by decide +kernel

/-! ## Hypotheses met: the network ports -/

/-- Every port keyed with a ready peer, fully open; partition 0 holds a receive buffer and both kinds of region on endpoint 9. -/
def net (c : Cmd) : State :=
  let s := (kv c).updPart 0 fun x => { x with
    buffers := [{ ep := 9, cmd := 1, addr := 0x11000, bytes := 4096, asid := 1, user := false }]
    regions := [{ ep := 9, key := 2, kind := 1, addr := 0x12000, bytes := 4096, asid := 1, user := false },
                { ep := 9, key := 16, kind := 2, addr := 0, bytes := 4, asid := 1, user := false }] }
  let s := s.setReg Reg.clkStatus 0x1E000
  (List.range 4).foldl (fun s n => (((s.setReg (Reg.net n 0) 0x11B).setReg (Reg.net n 4) 3).setCwnd n 512).updPort n fun x =>
    { x with phyUp := true, sentHello := true, gotHello := true, credits := 510 }) s
/-- The same with no link. -/
def dark (c : Cmd) : State := (List.range 4).foldl (fun s n => s.setReg (Reg.net n 0) 1) (net c)
/-- The partition's job is open: job 5 of epoch 3. -/
def inJob (s : State) : State := (s.setReg (Reg.job 0) 0x30005).setReg (Reg.abort 0) 1

/-- MSG_SEND of `n` bytes at 0x10000 from endpoint 7 to 9. -/
def send (n : Nat) (op : Nat := 1) : Cmd := cmd 0x40 0 (some (leBytes 8 (if op = 2 then 0 else 0x10000) ++ leBytes 8 0 ++ leBytes 4 n ++
  leBytes 4 0 ++ leBytes 1 op ++ leBytes 1 0 ++ leBytes 2 7 ++ leBytes 2 9 ++ leBytes 34 0))
/-- MSG_RECV_POST on endpoint 9. -/
def post (kind addr bytes key count tgt : Nat) : Cmd := cmd 0x41 0 (some (leBytes 8 addr ++ leBytes 8 bytes ++ leBytes 4 key ++
  leBytes 4 count ++ leBytes 1 kind ++ leBytes 1 tgt ++ leBytes 2 9 ++ leBytes 36 0))
/-- A COLLECTIVE of two members, this one of rank 0, over port 0: 16 FP32 elements at 0x10000 to `rows` rows at 0x11000. -/
def coll (op rows : Nat) : Cmd := cmd 0x42 0 (some (desc 0x10000 (if op = 0 then 1 else if op = 1 then 1 else 2) 16 0 ++
  desc 0x11000 rows 16 0 ++ leBytes 1 op ++ leBytes 3 0 ++ leBytes 2 0 ++ leBytes 1 2 ++ leBytes 1 1 ++ leBytes 8 0 ++
  leBytes 8 0x13000 ++ leBytes 8 1024 ++ leBytes 32 0))
/-- A job operation. -/
def jobCmd (op job epoch : Nat) : Cmd := cmd 0x42 0 (some (leBytes 64 0 ++ leBytes 1 op ++ leBytes 9 0 ++ leBytes 2 job ++ leBytes 2 epoch ++
  leBytes 50 0))
def collArgs (s : State) (c : Cmd) : Coll := got ⟨noMove.src, noMove.src, 0, 0, false, false, 0, 0, 0, [], 0, 0⟩ (s.parseColl c)

theorem witness_MessagesPostsAndCollectives_send : let c := send 67108864; let s := net c; let b := c.block.getD []; let a := c.sendArgs
    Runs s 1 0x40 c ∧ num b 25 1 < 4 ∧ num b 26 2 < 4096 ∧ num b 28 2 < 4096 ∧ num b 30 34 = 0 ∧ a.fieldsOk = true ∧
      isOk (s.parseLoc 0 a.loc true) = true ∧ s.jobGone c = false ∧ (s.portsOf 0).contains a.port = true ∧ s.linkUp a.port = true ∧
      s.peerReady a.port = true ∧ a.sizeOk = true ∧ s.sendWaits c = false ∧ (got (.dva 0) (s.parseLoc 0 a.loc true)).inSpace a.bytes = true ∧
      (let d := { c with block := some (leBytes 8 (2 ^ 56 - 64) ++ b.drop 8) }
       Runs (net d) 1 0x40 d ∧ isOk ((net d).parseLoc 0 d.sendArgs.loc true) = true ∧
         (got (.dva 0) ((net d).parseLoc 0 d.sendArgs.loc true)).inSpace d.sendArgs.bytes = false) ∧ (send 67108865).sendArgs.sizeOk = false ∧
      Runs (net (send 67108865)) 1 0x40 (send 67108865) ∧ Runs (dark c) 1 0x40 c ∧ (dark c).linkUp a.port = false ∧
      (let t := s.setReg (Reg.part 0) 2; Runs t 1 0x40 c ∧ (t.portsOf 0).contains a.port = false) ∧
      (let t := (inJob s).setReg (Reg.abort 0) 3; Runs t 1 0x40 c ∧ t.jobGone c = true) := by decide +kernel
theorem witness_MessagesPostsAndCollectives_post : let b := post 0 0x11000 4096 0 0 0; let r := post 1 0x12000 64 3 0 0
    let f := post 2 0 0 0 8 0; let w := post 0 0x11001 64 0 0 0; let k := post 4 0 0 0 0 0
    (∀ c ∈ [b, r, f], Runs (net c) 1 0x41 c ∧ (net c).postCheck c = 0 ∧ (net c).portsOf 0 ≠ [] ∧ (net c).jobGone c = false) ∧
      (∀ c ∈ [w, k], Runs (net c) 1 0x41 c ∧ (net c).postCheck c ≠ 0) ∧ w.postArgs.kind = 0 ∧ k.postArgs.kind = 4 := by decide +kernel
theorem witness_MessagesPostsAndCollectives_remove : let c := post 3 0 0 2 0 1; let d := post 3 0 0 0 0 0
    let m : RxMsg := { addr := 0, asid := 1, user := false, ep := 9, key := 2, kind := 1 }
    let busy := (net c).updPort 0 fun x => { x with pairs := [(0, { msg := some m })] }
    Runs (net c) 1 0x41 c ∧ (net c).postCheck c = 0 ∧ c.postArgs.tgt ≠ 0 ∧ (net c).entryBusy 0 c.postArgs = false ∧
      Runs busy 1 0x41 c ∧ busy.entryBusy 0 c.postArgs = true ∧
      (let s := (net d).updPart 0 fun x => { x with buffers := x.buffers.map (fun b => { b with cmd := 7 }) }
       Runs s 1 0x41 d ∧ s.postCheck d = 0 ∧ d.postArgs.tgt = 0 ∧
         ((s.part 0).buffers.find? (fun b => b.ep == 9 && !s.filling b.cmd)).isSome = true ∧
         ((s.removeBuffer 0 9).cmd? 1).map (·.op) = some 0x41) := by decide +kernel
theorem witness_MessagesPostsAndCollectives_collectives :
    (∀ c ∈ [coll 0 1, coll 1 2, coll 2 1, coll 3 2], let s := net c; let x := collArgs s c
      Runs s 1 0x42 c ∧ isOk (s.parseColl c) = true ∧ s.jobGone c = false ∧ s.portsCheck 0 x.ports = 0 ∧
        s.checkRange (s.accOf c 31 false) x.buf x.bufN true = none ∧ isOk (s.collResult (s.accOf c 31 false) x) = true ∧
        (dark c).portsCheck 0 x.ports = 0x0702 ∧
        (let d := { c with phase := .running, aux := List.replicate 128 0 }; let s := net d
         let w := s.writeRows (s.accOf d 31 false) x.dst 0 (chop x.dst.rowBytes x.dst.rows
           ((d.aux.map (BitVec.ofNat 8)).take (x.dst.rows * x.dst.rowBytes)))
         Runs s 1 0x42 d ∧ w.2.isNone = true ∧
           (w.1.writeDva (s.accOf d 31 false) x.dst.scale ((d.aux.map (BitVec.ofNat 8)).drop 128)).2.isNone = true ∧
           (w.1.writeDva (s.accOf d 31 false) x.dst.scale ((d.aux.map (BitVec.ofNat 8)).drop 128)).1.cmd? 1 = some d)) := by
  decide +kernel
theorem witness_MessagesPostsAndCollectives_jobs : let o := jobCmd 0x10 5 3; let z := jobCmd 0x10 0 0; let k := jobCmd 0x11 0 0
    let b := o.block.getD []
    Runs (net o) 1 0x42 o ∧ num b 65 1 < 8 ∧ num b 66 1 < 2 ∧ num b 67 1 = 0 ∧ num b 73 1 = 0 ∧ num b 78 2 < 4096 ∧
      num b 96 32 = 0 ∧ num b 64 1 = 0x10 ∧ num b 74 2 = 5 ∧ (net o).jobBusy o = false ∧ (net o).jobOf 0 ≠ (5, 3) ∧
      Runs (inJob (net o)) 1 0x42 o ∧ (inJob (net o)).jobOf 0 = (5, 3) ∧ Runs (net z) 1 0x42 z ∧ Runs (net k) 1 0x42 k ∧
      (net k).jobBusy k = false ∧
      (let s := { net o with fe := { (net o).fe with cmds := [o, { send 64 with id := 0, phase := .running }] } }
       Runs s 1 0x42 o ∧ s.jobBusy o = true) := by decide +kernel
/-- Messages of the command in port 0: one not begun, which met RNR, and one begun. -/
def sending : State := (net { send 8192 with phase := .running }).updPort 0 fun x => { x with msgs :=
  [{ cmd := some 1, src := 7, dst := 9, type := 2, rnrUntil := some 9, rnrSince := some 0 },
   { cmd := some 1, src := 7, dst := 10, type := 2, seq := some 4, sent := 1 }] }

theorem witness_MessagesPostsAndCollectives_rnr : (sending.cmd? 1).map (·.infinite) = some false ∧ sending.active = true ∧
    (∃ m ∈ (sending.port 0).msgs, m.cmd = some 1 ∧ m.rnrSince = some 0) ∧
    0 + 1000 * (((sending.cmd? 1).getD (cmd 0)).timeoutM1 + 1) ≤ (sending.atTime 9000).now ∧
    (collArgs (net (coll 1 2)) (coll 1 2)).dst.rows = 2 * (collArgs (net (coll 1 2)) (coll 1 2)).src.rows := by decide +kernel

/-- A frame of a type from endpoint 7 to 9; a SEND carries four bytes. -/
def frame (ty : Nat) : Frame :=
  if ty = 1 ∨ ty = 2 then { hdr := { type := ty, last := true, srcEp := 7, dstEp := 9, segBytes := 4, msgBytes := 4, key := 2 },
                            payload := leBytes 4 0x01020304 }
  else { hdr := { type := ty, srcEp := 7, dstEp := 9, key := 17 } }
/-- Partition 0's ports with nothing in flight. -/
def quiet : State := net (cmd 1)

theorem witness_FramesAreReceived_rows : quiet.alive = true ∧ quiet.stopped = false ∧ halted.stopped = true ∧
    (∀ ty ∈ ([1, 2, 3, 4, 5, 0x10, 0x11, 0x12, 0x13] : List Nat), (frame ty).hdr.type = ty ∧ frameOk (frame ty) = true) ∧
    (∀ n ∈ List.range 4, quiet.linkUp n = true) ∧ frameOk { frame 1 with payload := [] } = false := by decide +kernel
theorem witness_FramesAreReceived_held : let s := quiet.setReg Reg.stopStatus 2; let i := Instr.rxSend 0 (frame 2)
    let u := { s with fe := { s.fe with stopHeld := [i] } }
    s.fld Reg.stopStatus 0 3 = 2 ∧ (∀ j ∈ s.fe.stopHeld, heldPort j ≠ some 0) ∧ quiet.fld Reg.stopStatus 0 3 ≠ 2 ∧
      (∃ j ∈ u.fe.stopHeld, heldPort j = some 0) := by decide +kernel
theorem witness_FramesAreReceived_answers :
    let y : TxFrame := { frame := frame 2, sentAt := 0, rto := 64000 }
    let s := quiet.updPort 0 fun x => { x with unacked := [y] }
    (s.rxCommon 0 (frame 0x11)).portOwner 0 = some 0 ∧
      (((s.updPort 0 fun x => { x with lastRx := s.now }).rxCommon 0 (frame 0x11)).port 0).unacked.find?
        (fun y => y.frame.hdr.psn == (frame 0x11).hdr.psn) = some y ∧
      (let m : TxMsg := { cmd := some 1, src := 7, dst := 9, type := 2, seq := some 0, sent := 1, total := 2 }
       let t := sending.updPort 0 fun x => { x with msgs := [m] }
       ((t.rxCommon 0 (frame 0x13)).port 0).msgs.find? (fun m => m.src == 7 && m.dst == 9 && m.seq == some 0 && m.type != 5) =
         some m ∧ ((t.rxCommon 0 (frame 0x13)).cmd? 1).isSome = true) := by decide +kernel
theorem witness_FramesAreReceived_sequenced : let f := frame 2; let s := quiet
    s.portOwner 0 = some 0 ∧ (s.setReg (Reg.part 0) 2).portOwner 0 = none ∧ f.hdr.dstEpoch.toNat = s.epoch 0 ∧
      f.hdr.srcEpoch.toNat = s.peerEpoch 0 ∧ s.rxDrop 0 f.hdr = none ∧ ((s.rxCommon 0 f).port 0).seen f.hdr.psn = false ∧
      (((s.rxCommon 0 f).sendNaks 0 f.hdr.psn).noteRx 0 f.hdr).mayTake 0 f.hdr = true ∧
      (let g := { f with hdr := { f.hdr with srcEpoch := 255 } }; g.hdr.srcEpoch.toNat ≠ s.peerEpoch 0) ∧
      (let g := { f with hdr := { f.hdr with jobId := 5, jobEpoch := 2 } }
       g.hdr.jobId.toNat = ((inJob s).jobOf 0).1 ∧ jobOlder g.hdr.jobEpoch.toNat ((inJob s).jobOf 0).2 = true) ∧
      (let t := s.updPort 0 fun x => { x with rxAck := 1 }; t.rxDrop 0 f.hdr = none ∧ ((t.rxCommon 0 f).port 0).seen 0 = true) ∧
      (s.rxDrop 0 (frame 4).hdr = none ∧ ((s.rxCommon 0 (frame 4)).port 0).seen 0 = false) ∧
      (let g := { f with hdr := { f.hdr with psn := 1, msgSeq := 1 } }
       s.rxDrop 0 g.hdr = none ∧ ((s.rxCommon 0 g).port 0).seen 1 = false ∧
         (((s.rxCommon 0 g).sendNaks 0 1).noteRx 0 g.hdr).mayTake 0 g.hdr = false) := by decide +kernel
theorem witness_FramesAreReceived_verdicts : let w := (frame 1).hdr; let n := (frame 2).hdr; let a := (frame 3).hdr; let s := quiet
    (w.jobId.toNat, w.jobEpoch.toNat) = s.jobOf 0 ∧ (w.jobId.toNat, w.jobEpoch.toNat) ≠ (inJob s).jobOf 0 ∧
      ((s.part 0).regions.find? (fun r => r.kind == 1 && r.ep == 9 && r.key == 2)).isSome = true ∧
      (s.part 0).regions.find? (fun r => r.kind == 1 && r.ep == 9 && r.key == 3) = none ∧
      4096 < ({ w with offset := 4093 } : Hdr).offset.toNat + w.msgBytes ∧ w.offset.toNat + w.msgBytes ≤ 4096 ∧
      (∀ r ∈ (s.part 0).regions, s.sramWaits 0 r.addr = false) ∧
      ((s.part 0).buffers.find? (fun b => b.ep == 9 && !s.filling b.cmd)).isSome = true ∧
      (s.part 0).buffers.find? (fun b => b.ep == 8 && !s.filling b.cmd) = none ∧ 4096 < ({ n with msgBytes := 4097 } : Hdr).msgBytes ∧
      (∀ r ∈ (s.part 0).regions, r.kind = 2 → r.ep = 9 → (20 : BitVec 32).toNat < r.key ∨ r.key + r.bytes ≤ (20 : BitVec 32).toNat) ∧
      a.type = 3 := by decide +kernel
theorem witness_FramesAreReceived_placing : let m : RxMsg := { addr := 0x11000, asid := 1, user := false, ep := 9, key := 0, kind := 0, buf := some 1 }
    m.got.contains (frame 2).hdr.seg = false ∧ quiet.fenceKey 0 17 = some 17 ∧ quiet.fenceFault 17 = none ∧
      (quiet.writeLoc (quiet.rxAcc 0 m) ((rawLoc m.addr).plus 0) (frame 2).payload).2.isNone = true ∧
      m.got.length + 1 = segsOf (frame 2).hdr.msgBytes ∧ m.got.length + 1 ≠ segsOf 8193 ∧
      (frame 2).hdr.psn = (quiet.port 0).rxAck ∧ (quiet.port 0).rxDone = [] := by decide +kernel
theorem witness_FramesAreReceived_back : (∃ m ∈ ((sending.updPort 0 fun x => { x with
    msgs := [{ cmd := some 1, src := 7, dst := 9, type := 2, seq := some 0, sent := 1 }] }).port 0).msgs,
    m.src = (frame 0x12).hdr.srcEp ∧ m.dst = (frame 0x12).hdr.dstEp ∧ m.seq = some (frame 0x12).hdr.msgSeq ∧ m.type ≠ 5) ∧
    (frame 2).hdr.ece = false ∧ (quiet.port 0).halvedAt = none := by decide +kernel

/-- Timers of port 0 started at 0, a message to send, and a frame not acknowledged. -/
def busyPort : State := ({ quiet with fe := { quiet.fe with cmds := [{ send 8192 with phase := .running }] } } : State).updPort 0 fun x => { x with
  ackAt := some 0, unacked := [{ frame := frame 2, sentAt := 0, rto := 64000 }],
  msgs := [{ cmd := some 1, src := 7, dst := 9, type := 2 }] }

theorem witness_LinksTimersAndSending_links : let d := dark (cmd 1); let k := d.setReg (Reg.net 0 0) 2
    d.active = true ∧ d.ethLock 0 = true ∧ d.ethLock 3 = true ∧ d.fld (Reg.net 0 0) 0 3 ≤ 1 ∧ d.fld (Reg.net 0 4) 0 1 = 1 ∧
      d.fld (Reg.net 0 4) 1 1 = 1 ∧ k.alive = true ∧ k.fld (Reg.net 0 0) 0 3 = 2 ∧ quiet.linkUp 0 = true ∧ quiet.stopped = false ∧
      quiet.peerEpoch 0 ≠ (7 : BitVec 8).toNat ∧ quiet.fld (Reg.net 0 0) 8 1 = 1 ∧ (d.setReg Reg.clkStatus 0).ethLock 0 = false ∧
      halted.stopped = true := by decide +kernel
theorem witness_LinksTimersAndSending_tags (nonce : BitVec 256) (peer : Nat) : keyxTag nonce peer + 1 ≠ keyxTag nonce peer := by
  intro h
  have e := congrArg (fun v => v - keyxTag nonce peer) h
  simp [BitVec.add_comm, BitVec.add_sub_cancel] at e
theorem witness_LinksTimersAndSending_timers : let down := (dark (cmd 1)).updPort 0 fun x => { x with downAt := some 0 }
    quiet.active = true ∧ quiet.linkUp 0 = true ∧ (quiet.port 0).lastRx + 1000000 ≤ (quiet.atTime 1000000).now ∧
      (down.port 0).downAt = some 0 ∧ down.linkUp 0 = false ∧ 0 + 10000000 ≤ (down.atTime 10000000).now ∧
      (busyPort.port 0).ackAt = some 0 ∧ 0 + 1000 ≤ (busyPort.atTime 1000).now ∧
      (busyPort.port 0).lastTx + 100000 ≤ (busyPort.atTime 100000).now ∧
      (busyPort.port 0).lastHello + 1000000 ≤ (busyPort.atTime 1000000).now ∧ Reachable quiet 0 (Reg.net 0 4) ∧
      Reachable quiet 0 (Reg.net 3 4) ∧ bitB (BitVec.toNat (0x403 : BitVec 32)) 10 = true ∧ quiet.ethLock 0 = true := by decide +kernel
theorem witness_LinksTimersAndSending_sending : let s := busyPort; let m : TxMsg := { cmd := some 1, src := 7, dst := 9, type := 2 }
    let ab := s.updPort 0 fun x => { x with aborts := [(5, 3, true)] }
    s.portOwner 0 = some 0 ∧ s.active = true ∧ s.linkUp 0 = true ∧ s.peerReady 0 = true ∧
      (s.port 0).unacked.length < min 512 (s.cwnd 0) ∧ (s.port 0).aborts = [] ∧ (s.port 0).nextMsg = some m ∧ s.configured 0 = true ∧
      bitB (s.part 0).trace.types 1 = false ∧
      (s.cmd? 1).isSome = true ∧ isOk (s.readLoc { s.accOf (send 8192) 31 false with epoch := s.epoch 0 }
        ((rawLoc (send 8192).sendArgs.loc).plus (8192 * m.sent)) (min 8192 ((send 8192).sendArgs.bytes - 8192 * m.sent))) = true ∧
      (ab.port 0).aborts = [(5, 3, true)] ∧ (ab.port 0).abortOut = false := by decide +kernel
theorem witness_LinksTimersAndSending_resends : let s := busyPort.setReg (Reg.net 0 0x40) 0x740
    let y : TxFrame := { frame := frame 2, sentAt := 0, rto := 64000 }; let z := { y with resends := 7 }
    (s.portOwner 0).isSome = true ∧ (s.port 0).unacked.find? (fun y => y.frame.hdr.psn == 0) = some y ∧
      y.sentAt + y.rto ≤ (s.atTime 64000).now ∧ y.resends < s.fld (Reg.net 0 0x40) 8 4 ∧
      ((s.updPort 0 fun x => { x with unacked := [z] }).port 0).unacked.find? (fun y => y.frame.hdr.psn == 0) = some z ∧
      s.fld (Reg.net 0 0x40) 8 4 ≤ z.resends := by decide +kernel

/-! ## Hypotheses met: partitions -/

/-- A CONFIGURE of partition 3: `n2` (log2) slices from slice 2, excluded stacks `excl`, queues 16 to 31, completion queues 8 to 11. -/
def configure (n2 : Nat) (excl : Nat := 0) (ph : Phase := .started) : Cmd :=
  { cmd 0x82 0 (some (leBytes 1 (2 + 8 * n2) ++ leBytes 1 excl ++ leBytes 2 0 ++ leBytes 2 16 ++ leBytes 2 16 ++ leBytes 1 8 ++ leBytes 1 4 ++
      leBytes 6 0 ++ leBytes 8 0 ++ leBytes 4 64 ++ leBytes 36 0)) with part := 3, phase := ph }
/-- A command on the partition itself. -/
def partCmd (op : Nat) (hi : Nat := 0) (ph : Phase := .started) : Cmd := { cmd op hi with phase := ph }
/-- Partition 0 in a state, with a command that runs. -/
def inState (st : Nat) (c : Cmd) : State := (runs c).setFld (Reg.part 0) 0 3 st

theorem witness_PartitionsAreMadeHeldAndReleased_configure : let c := configure 1; let d := configure 2; let s := runs c
    let train := fun (r : BitVec 16) => c.confArgs.slices.foldl (fun s n => s.train r n) s
    Runs s 1 0x82 c ∧ c.f 49 0 8 = 0 ∧ s.confCheck c = 0 ∧ c.confArgs.inService.any (train 0).offline = false ∧
      c.confArgs.inService.any (train 0x30).offline = true ∧ Runs (runs d) 1 0x82 d ∧ (runs d).confCheck d = 0x0901 := by decide +kernel
theorem witness_PartitionsAreMadeHeldAndReleased_configured : let c := configure 1 0 .running
    let s := ((runs c).setFld (Reg.part 3) 0 3 1).setFld (Reg.memScrub 2) 15 1 1
    Runs s 1 0x82 c ∧ s.pstate 3 = 1 ∧ c.confArgs.first + 2 ^ c.confArgs.log2 ≤ 8 ∧
      c.confArgs.inService.filter s.scrubBusy = [2] := by decide +kernel
theorem witness_PartitionsAreMadeHeldAndReleased_release : let c := partCmd 0x83
    Runs (runs c) 1 0x83 c ∧ (runs c).configured 0 = true ∧ Runs (inState 0 c) 1 0x83 c ∧ (inState 0 c).pstate 0 = 0 ∧
      Runs (inState 1 c) 1 0x83 c ∧ (inState 1 c).pstate 0 ≠ 0 ∧ (inState 1 c).configured 0 = false := by decide +kernel
theorem witness_PartitionsAreMadeHeldAndReleased_drain :
    let s := (inState 4 (cmd 1)).updPart 0 fun x => { x with drainAt := some 0, releaseBy := some 9 }
    let u := (inState 5 (partCmd 0x83 0 .running)).updPart 0 fun x => { x with releaseBy := some 1 }
    s.active = true ∧ s.pstate 0 = 4 ∧ (s.part 0).drainAt = some 0 ∧ s.firstSlice 0 + s.nSlices 0 ≤ 8 ∧ 0 + 50000 ≤ (s.atTime 50000).now ∧
      u.pstate 0 = 5 ∧ (u.part 0).releaseBy = some 1 ∧ (u.cmd? 1).isSome = true := by decide +kernel
theorem witness_PartitionsAreMadeHeldAndReleased_hold : let c := partCmd 0x8D; let d := partCmd 0x8E (at_ 18 3)
    Runs (runs c) 1 0x8D c ∧ c.f 50 0 2 ≠ 3 ∧ Runs (runs d) 1 0x8E d ∧ d.f 50 0 2 = 3 := by decide +kernel

/-- A CONTEXT_SAVE or CONTEXT_RESTORE that holds partition 0, whose slot 0 holds an image. -/
def switching (op : Nat) : Cmd := { partCmd op 0 .running with deadline := 20000 }
def holding (op st : Nat) : State := ((inState st (switching op)).setFld (Reg.partSwitch 0) 0 1 1).updPart 0 fun x =>
  { x with hold := some 1, slots := [(0, { epoch := 0, shape := (inState st (switching op)).shape 0 })] }

theorem witness_PartitionsAreMadeHeldAndReleased_switch : let c := switching 0x8D; let d := switching 0x8E
    let s := holding 0x8D 2; let r := holding 0x8E 2; let i := (r.part 0).slots.get (fun _ => {}) 0
    s.holder 0 = some c ∧ r.holder 0 = some d ∧ s.pstate 0 = 2 ∧ s.fld (Reg.part 0) 3 1 = 0 ∧
      (∀ x ∈ s.fe.cmds, x.id = c.id ∨ x.part ≠ 0) ∧ s.inTime c = true ∧ r.inTime d = true ∧ (s.slicesOf 0).any s.offline = false ∧
      ((s.setReg (Reg.memStatus 0) 3).slicesOf 0).any (s.setReg (Reg.memStatus 0) 3).offline = true ∧
      (s.sweepCores 0 (fun _ => { write := true, keep := false }) (s.coresOf 0)).2.isNone = true ∧
      (let s1 := (s.sweepCores 0 (fun _ => { write := true, keep := false }) (s.coresOf 0)).1
       let s2 := (s1.emptyStores 0).setFld (Reg.partSwitch 0) 0 1 0
       s2.badSram 0 0 = none ∧ c.f 51 0 5 = 0 ∧
         ({ s2 with mem := { s2.mem with sramBad := [(0x40000, true)] } }.badSram 0 0) = some 0x400000) ∧
      r.fld (Reg.partSwitch 0) (d.f 49 0 1) 1 = 1 ∧ i.epoch = r.epoch 0 ∧ i.shape = r.shape 0 ∧
      (r.setReg (Reg.partSwitch 0) 0).fld (Reg.partSwitch 0) 0 1 = 0 ∧ c.infinite = false ∧ c.deadline < (s.atTime 20001).now ∧
      r.badImage 0 0 (imageBytes i.regions) = none ∧ r.badImage 0 0 64 = none ∧ i.epoch ≠ (r.setFld (Reg.part 0) 24 8 1).epoch 0 ∧
      (let b := 16 * (imageBase 0 0 / 16)
       { r with mem := { r.mem with hbmBad := [(b / 16, true)] } }.badImage 0 0 64 = some b) ∧
      (let b := 16 * ((stackBase 0 + usable + slotOffset 0) / 16)
       { r with mem := { r.mem with hbmBad := [(b / 16, true)] } }.badImage 0 0 (imageBytes i.regions) = some b) ∧
      (holding 0x8D 3).holder 0 = some c ∧ (holding 0x8D 3).pstate 0 = 3 ∧ (holding 0x8E 3).holder 0 = some d ∧
      (holding 0x8E 3).pstate 0 = 3 := by decide +kernel
theorem witness_PartitionsAreMadeHeldAndReleased_image : dev.canonical = true ∧ 2 ∈ dev.coresOf 0 ∧
    (∃ m ∈ regionAreas 0, m.1 ≤ 0xBFFFFF ∧ 0xBFFFFF < m.1 + m.2) ∧ (∃ m ∈ regionAreas 2, m.1 ≤ 0x400000 ∧ 0x400000 < m.1 + m.2) := by
  decide +kernel
theorem witness_PartitionsAreMadeHeldAndReleased_reset : let c := partCmd 0x8F; let s := dev.updPart 0 fun x => { x with resetDue := true }
    Runs (runs c) 1 0x8F c ∧ s.active = true ∧ s.configured 0 = true ∧ (s.part 0).resetDue = true ∧
      s.firstSlice 0 + s.nSlices 0 ≤ 8 ∧ (inJob s).fld (Reg.abort 0) 0 1 = 1 := by decide +kernel

/-! ## Hypotheses met: counters, traces, watches and the scheduled stop -/

/-- A COUNTER_CONFIG. -/
def counters (b : List Byte) : Cmd := cmd 0x89 0 (some b)
/-- A TRACE_CONFIG block: a ring of 1 MiB at 0x100000, of a mode; the trigger of a pre-trigger mode is core 2's. -/
def traceBlock (mode : Nat) (pre trig core : Nat := 0) : List Byte := leBytes 8 0x100000 ++ leBytes 4 1 ++ leBytes 1 mode ++ leBytes 1 pre ++
  leBytes 1 trig ++ leBytes 1 core ++ leBytes 48 0
def traceCmd (b : List Byte) : Cmd := cmd 0x8A 0 (some b)
/-- A TENSOR_WATCH of 64 bytes in slot 7, which signals fence `f` where `sig` is 1. -/
def watchBlock (slot sig f : Nat) : List Byte := leBytes 8 0x10000 ++ leBytes 8 64 ++ leBytes 8 0 ++ leBytes 8 0x11000 ++ leBytes 8 64 ++
  leBytes 8 0x12000 ++ leBytes 4 (f + 2 ^ 24 * sig) ++ leBytes 1 slot ++ leBytes 11 0
def watchCmd (b : List Byte) : Cmd := cmd 0x8B 0 (some b)
def armed : Watch := ⟨0x10000, 64, 0, 0x11000, 64, 0x12000, 0, false, 1, false⟩

theorem witness_CountersTracesAndWatches_counters : let c := counters (cfgBlock 0x8002 1 0x412); let d := counters (cfgBlock 2 1 0x4FF)
    let e := counters ((cfgBlock 2 1 0).set 7 1); let f := counters ((cfgBlock 2 1 0).set 0 8)
    let b := cfgBlock 0x8002 1 0x412
    Runs (runs c) 1 0x89 c ∧ num b 6 1 / 2 = 0 ∧ num b 7 57 = 0 ∧ dev.coreMask 0 (num b 0 4) = [2] ∧
      (∀ n ∈ dev.coreMask 0 (num b 0 4), (dev.coresOf 0).contains n = true ∧ n < 24) ∧
      (∀ k ∈ ones (num b 4 2) 16, cfgOk k (num b (64 + 4 * k) 4) = true) ∧ num b 6 1 = 0 ∧ num (b.set 6 1) 6 1 = 1 ∧
      Runs (runs d) 1 0x89 d ∧ cfgOk 1 (num (cfgBlock 2 1 0x4FF) 68 4) = false ∧ Runs (runs e) 1 0x89 e ∧
      num ((cfgBlock 2 1 0).set 7 1) 7 57 ≠ 0 ∧ Runs (runs f) 1 0x89 f ∧
      (∃ n ∈ dev.coreMask 0 (num ((cfgBlock 2 1 0).set 0 8) 0 4), (dev.coresOf 0).contains n = false) := by decide +kernel
theorem witness_CountersTracesAndWatches_rings : let b := traceBlock 3 8 3 2; let c := traceCmd b; let z := traceCmd (traceBlock 0)
    let s := kv c
    Runs s 1 0x8A c ∧ traceReservedOk b = true ∧ traceFieldsOk b = true ∧ num b 12 1 = 3 ∧ num b 14 1 = 3 ∧
      (s.coresOf 0).contains (num b 15 1) = true ∧
      (let u := s.outerBegin c; (u.coresOf c.part).contains (num b 15 1) = true ∧
        u.ringFault (u.accOf c 31 false) (num b 0 8) (((traceOf b c.asid).slots * 32 + 4096) / 4096) = none) ∧
      Runs (runs c) 1 0x8A c ∧ (let u := (runs c).outerBegin c; (u.ringFault (u.accOf c 31 false) (num b 0 8) 256).isSome = true ∧
        ((traceOf b c.asid).slots * 32 + 4096) / 4096 = 256) ∧
      Runs (kv z) 1 0x8A z ∧ num (traceBlock 0) 12 1 = 0 ∧ traceReservedOk (traceBlock 0) = true ∧
      traceFieldsOk (traceBlock 0) = true ∧ num b 13 1 < 16 ∧ num (leBytes 64 0) 8 4 = 0 := by decide +kernel

/-- Partition 7 traces in a state, `index` records taken and `n` of them staged. -/
def tracing (st index n : Nat) : State := (dev.setReg (Reg.traceStatus 7) (BitVec.ofNat 32 st)).updPart 7 fun x =>
  { x with trace := { slots := 32640, pre := 8, index, slot := 32639, staged := List.replicate n (0, leBytes 32 0) } }

theorem witness_CountersTracesAndWatches_records : (∀ st ∈ ([1, 2, 3, 4, 5] : List Nat), (tracing st 0 127).traceState 7 = st ∧
      ((tracing st 0 127).part 7).trace.staged.length < 128) ∧ ((tracing 2 32639 0).part 7).trace.index < 32640 ∧
    128 ≤ ((tracing 1 0 128).part 7).trace.staged.length ∧ Reachable (tracing 3 0 0) 0 (Reg.traceStatus 7 + 0x10) ∧
    bitB (BitVec.toNat (1 : BitVec 32)) 0 = true ∧ ((tracing 3 0 0).part 7).trace.trigger = 0 ∧ bitB (BitVec.toNat (2 : BitVec 32)) 0 = false ∧
    dev.active = true ∧
    (let s := (dev.setReg (Reg.traceStatus 0) 1).updPart 0 fun x => { x with trace := { slots := 8, staged := [(0, leBytes 32 0)] } }
     s.traceState 0 ≠ 0 ∧ s.tracing 0 = true ∧ (s.atTime 9000).aloneSince 0 (s.atTime 9000).now = true) := by decide +kernel
theorem witness_CountersTracesAndWatches_watches : let c := watchCmd (watchBlock 7 1 0x1FFFFF); let d := watchCmd (watchBlock 8 0 0)
    let e := watchCmd (watchBlock 7 1 0x200000); let b := watchBlock 7 1 0x1FFFFF
    Runs (runs c) 1 0x8B c ∧ bits (num b 48 4) 25 7 = 0 ∧ num b 53 11 = 0 ∧ watchFieldsOk b = true ∧
      dev.fenceKey 0 0x1FFFFF ≠ none ∧ (dev.part 0).watches.any (fun x => x.1 == 7) = false ∧ Runs (runs d) 1 0x8B d ∧
      watchFieldsOk (watchBlock 8 0 0) = false ∧ Runs (runs e) 1 0x8B e ∧ watchFieldsOk (watchBlock 7 1 0x200000) = true ∧
      dev.fenceKey 0 0x200000 = none := by decide +kernel
theorem witness_CountersTracesAndWatches_act : let c : Cmd := { cmd 0x10 with phase := .watched, watching := [7] }
    let d : Cmd := { c with watching := [3, 7] }
    (∀ x ∈ [c, d], let s := (runs x).updPart 0 fun y => { y with watches := [(7, armed)] }
      s.fe.cmds.find? (fun c => c.part == 0 && c.phase == .watched && c.watching.contains 7) = some x ∧
        (s.part 0).watches.find? (fun w => w.1 == 7) = some (7, armed) ∧ s.cmd? x.id = some x ∧ s.active = true ∧
        x.epoch = s.epoch 0) ∧ c.watching.filter (· != 7) = [] ∧ d.watching.filter (· != 7) ≠ [] := by decide +kernel

/-- SNAPSHOT at `t` after its dispatch, with an action. -/
def snapshot (t act : Nat) : Cmd := cmd 0x8C (t + 2 ^ 64 * (1 + 2 * act))
/-- A stop in a state, armed for 9000, or halted with its action and the time it resumes. -/
def stopping (st act : Nat) : State := { dev.setReg Reg.stopStatus (BitVec.ofNat 32 st) with
  clk := { dev.clk with stopT := 9000, stopAction := act, resumeAt := 12000 } }

theorem witness_StopsHaltAndRelease_snapshot : let c := snapshot 1997 0; let d := snapshot 1996 0; let e := snapshot 2000 3
    Runs (runs c) 1 0x8C c ∧ c.dispAt + 2000 ≤ alignUp (c.dispAt + c.f 32 0 64) 4 ∧ c.f 40 0 1 = 1 ∧ c.f 40 1 2 ≠ 3 ∧
      (runs c).fld Reg.stopStatus 0 3 = 0 ∧ Runs (runs d) 1 0x8C d ∧ alignUp (d.dispAt + d.f 32 0 64) 4 < d.dispAt + 2000 ∧
      Runs (runs e) 1 0x8C e ∧ e.f 40 1 2 = 3 ∧ Runs (runs c (stopping 1 0)) 1 0x8C c ∧
      (runs c (stopping 1 0)).fld Reg.stopStatus 0 3 ≠ 0 := by decide +kernel
theorem witness_StopsHaltAndRelease_arm : let s := dev.setReg Reg.stopLo 6999; let u := dev.setReg Reg.stopLo 6996
    Reachable s 0 Reg.stopCtl ∧ bits (BitVec.toNat (0x21 : BitVec 32)) 0 4 = 1 ∧ bits (BitVec.toNat (0x21 : BitVec 32)) 4 2 ≠ 3 ∧
      s.now + 2000 ≤ alignUp (s.reg64 Reg.stopLo Reg.stopHi) 4 ∧ s.fld Reg.stopStatus 0 3 = 0 ∧
      alignUp (u.reg64 Reg.stopLo Reg.stopHi) 4 < u.now + 2000 ∧ bits (BitVec.toNat (2 : BitVec 32)) 0 4 = 2 ∧
      Reachable (stopping 1 0) 0 Reg.stopCtl ∧ (stopping 1 0).fld Reg.stopStatus 0 3 = 1 ∧
      (stopping 1 0).now + 2000 < (stopping 1 0).clk.stopT ∧ Reachable ((stopping 1 0).atTime 7000) 0 Reg.stopCtl ∧
      ((stopping 1 0).atTime 7000).clk.stopT ≤ ((stopping 1 0).atTime 7000).now + 2000 := by decide +kernel
theorem witness_StopsHaltAndRelease_states : (∀ st ∈ ([1, 2, 3, 4, 5] : List Nat), (stopping st 0).alive = true ∧
      (stopping st 0).fld Reg.stopStatus 0 3 = st) ∧ (stopping 1 0).clk.stopT ≤ ((stopping 1 0).atTime 9000).now ∧
    (stopping 3 0).fld Reg.ras 4 1 = 0 ∧ ((stopping 3 2).setReg Reg.ras 0x10).fld Reg.ras 4 1 = 1 ∧ (stopping 3 2).clk.stopAction = 2 ∧
    (stopping 4 0).reaches 0 = true ∧ (stopping 4 0).decodes 0 Reg.stopCtl = true ∧ bits (BitVec.toNat (0xC : BitVec 32)) 0 2 = 0 ∧
    bitB (BitVec.toNat (0xC : BitVec 32)) 2 = true ∧ bitB (BitVec.toNat (0xC : BitVec 32)) 3 = true ∧
    (stopping 5 0).clk.resumeAt ≤ ((stopping 5 0).atTime 12000).now ∧ (stopping 5 0).fe.stopHeld = [] ∧
    (stopping 5 0).configured 0 = true := by decide +kernel

/-! ## Hypotheses met: integrity and recovery -/

/-- A vector run on core 2. -/
def vecStuck : State := (runs { cmd 0x22 with phase := .running }).updCore 2 fun k => { k with run := some { cmd := 1, handle := 0 } }

theorem witness_FaultsAreFoundAndRecovered_watchdog : let s := vecStuck
    let n := 1000000 * s.fld Reg.watchdog 0 16
    s.coreOwner 2 = some 0 ∧ ((s.atTime 0).unitWork 2 0 (.array 3)).isNone = true ∧
      ((s.atTime n).unitWork 2 0 .vector).map (fun r => (r.1.op, r.2)) = some (0x22, 0) ∧
      s.active = true ∧ s.configured 0 = true ∧ s.fld Reg.watchdog 0 16 ≠ 0 ∧ unitNum (.array 3) < 4 ∧ 0 + n ≤ (s.atTime n).now ∧
      (s.atTime 0).now < 0 + n ∧ ((s.core 2).run.bind (fun r => s.cmd? r.cmd)).isSome = true ∧ (s.part 0).resetDue = false := by
  decide +kernel
theorem witness_FaultsAreFoundAndRecovered_patrol : let s := dev.setReg (Reg.memStatus 7) 0; let t := { s with mem := { s.mem with hbmBad := [(1, true)] } }
    let o := { s with mem := { s.mem with hbmOne := [(1, true)] } }
    s.active = true ∧ s.offline 0 = false ∧ s.offline 7 = false ∧ s.fld (Reg.memStatus 7) 3 1 = 0 ∧ s.fld (Reg.memScrub 7) 15 1 = 0 ∧
      (∀ p ∈ List.range 8, s.traceState p = 0) ∧ s.hbmBad ((stackBase 7 + 0xBFFFFFFFF) / 16) = false ∧
      t.hbmBad ((stackBase 0 + 16) / 16) = true ∧ o.hbmBad 1 = false ∧ o.mem.hbmOne.get (fun _ => false) 1 = true ∧
      s.mem.hbmOne.get (fun _ => false) 1 = false := by decide +kernel
theorem witness_FaultsAreFoundAndRecovered_derating : let s := { dev.setReg (Reg.memThresh 0) 5 with ras := { dev.ras with derate := [(0, 6)] } }
    s.active = true ∧ s.offline 0 = false ∧ s.fwRuns = true ∧ s.fld (Reg.memStatus 0) 3 1 = 0 ∧ s.fld (Reg.memThresh 0) 0 16 ≠ 0 ∧
      s.fld (Reg.memThresh 0) 0 16 < s.ras.derate.get (fun _ => 0) 0 ∧ dev.ras.derate.get (fun _ => 0) 0 ≤ dev.fld (Reg.memThresh 0) 0 16 ∧
      (s.setReg (Reg.memStatus 0) 8).fld (Reg.memStatus 0) 3 1 = 1 ∧ (s.setReg (Reg.memStatus 0) 8).fld (Reg.memStatus 0) 0 2 < 3 ∧
      (s.setReg (Reg.memStatus 0) 8).offline 0 = false := by decide +kernel

/-- Core 2's vector engine is out and in its self-test; array 1 of core 23 waits for its own. -/
def testing : State := ((dev.setReg (Reg.vecFault 2) 1).updCore 2 fun k => { k with testing := [.vector, .array 0] }).updCore 23 fun k =>
  { k with bist := [1] }

theorem witness_FaultsAreFoundAndRecovered_units : let s := dev.setReg (Reg.vecFault 2) 1
    Reachable s 0 (unitFlag .vector 2).1 ∧ Reachable s 0 (unitFlag (.array 3) 23).1 ∧ Reachable s 0 (unitFlag .attention 0).1 ∧
      Reachable s 0 (unitFlag .dma 0).1 ∧ s.unitOut 2 .vector = true ∧ (s.core 2).testing.contains .vector = false ∧
      s.unitOut 2 .dma = false ∧ s.coreOwner 2 = some 0 ∧ s.coreOwner 23 = none ∧ (s.part 0).att = [] ∧
      (testing.core 2).testing.contains .vector = true ∧ (testing.core 2).testing.contains (.array 0) = true ∧
      (testing.core 2).tiles = [] ∧ (testing.core 2).testing.contains .attention = false ∧ testing.active = true ∧
      unitDiag .vector true [] = 0 ∧ unitDiag .vector false [] ≠ 0 ∧
      (testing.core 23).bist.contains 1 = true := by decide +kernel

/-- The heartbeat watch is armed; the count has not moved for three samples. -/
def beating : State := (dev.setReg Reg.ras 9).setReg Reg.missed 3

theorem witness_FaultsAreFoundAndRecovered_heartbeat : dev.active = true ∧ dev.eclosed = true ∧ dev.fwRuns = true ∧
    beating.fld Reg.ras 0 1 = 1 ∧ (beating.reg Reg.wingbeat).toNat = beating.ras.wbLast ∧ beating.fld Reg.missed 0 3 = 3 ∧
    (beating.setReg Reg.missed 2).fld Reg.missed 0 3 < 3 ∧
    ((beating.setReg Reg.wingbeat 1).reg Reg.wingbeat).toNat ≠ beating.ras.wbLast ∧ Reachable dev 0 0x150001C ∧ dev.firmwareCmds = [] ∧
    dev.fld Reg.ras 4 1 = 0 ∧ dev.configured 0 = true ∧ (stopping 1 0).firmwareCmds = [] ∧ (stopping 1 0).fld Reg.stopStatus 0 3 = 1 := by
  decide +kernel
theorem witness_FaultsAreFoundAndRecovered_window : let r : LogRec := { kind := 0x28 }
    let s := { dev.setReg Reg.rasWindow 0xFFFFF with ras := { dev.ras with log := [(logKey 7 65535, some r)] } }
    Reachable beating 0 Reg.rasIrq ∧ beating.fld Reg.rasIrq 31 1 = 0 ∧ beating.fld Reg.ras 3 1 = 1 ∧
      bitB (BitVec.toNat (0x80000007 : BitVec 32)) 31 = true ∧ s.reaches 0 = true ∧ (∀ o ∈ touched (Reg.windowData + 56) 8, s.decodes 0 o = true) ∧
      (∀ o ∈ touched Reg.windowData 1, s.decodes 0 o = true) ∧
      s.fld Reg.rasWindow 3 1 = 1 ∧ s.fld Reg.rasWindow 4 20 < 65536 ∧
      s.ras.log.get (fun _ => none) (logKey (s.fld Reg.rasWindow 0 3) (s.fld Reg.rasWindow 4 20)) = some r := by decide +kernel

/-! ## Hypotheses met: resets, supplies, boot, keys and weights -/

/-- PERST# low, with power. -/
def inPerst : State := { dev with clk := { dev.clk with perst := true } }

theorem witness_ResetsAndSupplies_perst : dev.clk.perst = false ∧ inPerst.clk.perst = true ∧ inPerst.clk.powered = true ∧
    inPerst.clk.warm = false ∧ inPerst.clk.tripped = false ∧ inPerst.clk.heldBy = 0 ∧ inPerst.fld Reg.secStatus 4 4 ≠ 0xF ∧
    (let s := { inPerst with clk := { inPerst.clk with powered := false } }; s.clk.powered = false ∧ s.clk.perst = true ∧ s.clk.heldBy = 0) ∧
    (let s := { dev with clk := { dev.clk with powered := false } }; s.clk.powered = false ∧ s.clk.perst = false ∧
      s.fld Reg.secStatus 4 4 ≠ 0xF) := by decide +kernel
theorem witness_ResetsAndSupplies_fuses : let s := { inPerst with clk := { inPerst.clk with strapsDue := true } }
    let t := inPerst.setReg Reg.secStatus 0xF0
    s.clk.strapsDue = true ∧ inPerst.clk.strapsDue = false ∧ t.fld Reg.secStatus 4 4 = 0xF ∧ t.clk.perst = true ∧ t.clk.powered = true ∧
      (let u := { dev.setReg Reg.pwr 0x3FF with clk := { dev.clk with tripped := true } }
       u.clk.powered = true ∧ u.clk.tripped = true ∧ u.fld Reg.pwr 0 1 = 1) := by decide +kernel
theorem witness_ResetsAndSupplies_warm : dev.clk.powered = true ∧ dev.clk.tripped = false ∧ dev.clk.perst = false ∧ dev.clk.warm = false ∧
    dev.alive = true ∧ dev.fld Reg.secStatus 4 4 ≠ 0xF ∧ ({ dev with clk := { dev.clk with warm := true } } : State).clk.warm = true ∧
    ({ dev with clk := { dev.clk with tripped := true } } : State).clk.tripped = true := by decide +kernel
theorem witness_ResetsAndSupplies_supplies : let s := dev.setReg Reg.pwr 0x3FF; let t := dev.setReg Reg.pwr 0x3FE
    let u := { t with clk := { t.clk with heldBy := 1 } }; let v := { t with clk := { t.clk with heldBy := 3 } }
    s.clk.powered = true ∧ s.clk.tripped = false ∧ s.clk.perst = false ∧ s.fld Reg.pwr 0 1 = 1 ∧ s.fld Reg.pwr 5 1 = 1 ∧
      s.fld Reg.pwr 8 1 = 1 ∧ s.fld Reg.pwr 9 1 = 1 ∧ t.fld Reg.pwr 0 1 = 0 ∧ setBits u.clk.heldBy 0 1 0 = 0 ∧
      setBits v.clk.heldBy 0 1 0 ≠ 0 ∧ u.clk.warm = false ∧ u.fld Reg.secStatus 4 4 ≠ 0xF ∧
      (dev.setReg Reg.pwr 0x1FF).fld Reg.pwr 9 1 = 0 ∧ (inPerst.setReg Reg.pwr 0x3FF).fld Reg.pwr 0 1 = 1 := by decide +kernel
theorem witness_ResetsAndSupplies_flr : dev.alive = true ∧ dev.fnExists 0 = true ∧ vfDev.fnExists 1 = true ∧ halted.stopped = true ∧
    halted.alive = true ∧ dev.stopped = false ∧ dev.fe.cmds = [] ∧ dev.configured 0 = true ∧
    regKey 1 msixBase ≤ regKey 1 msixBase + 0x80FC := by decide +kernel

/-- A pushed image of 33,952 bytes at 0x40, of which `state` is waiting. -/
def pushed (state at' len : Nat) : State := (({ dev with boot := { dev.boot with waiting := 1 } }.setReg Reg.secStatus (BitVec.ofNat 32 state)).setReg
  Reg.imgLo (BitVec.ofNat 32 at')).setReg Reg.imgBytes (BitVec.ofNat 32 len)
/-- An image's first bytes: a header with a body of 64 bytes, signed by the key of slot 0. -/
def imageHead : List Byte := leBytes 4 0x4E4C4952 ++ leBytes 4 1 ++ leBytes 4 7 ++ leBytes 4 64 ++ leBytes 80 0
/-- The whole image, its body all zeros. -/
def image : List Byte := padTo 33952 (imageHead ++ shake256 (List.replicate 64 0) 32)

theorem witness_ImagesKeysAndSealedWeights_push : let s := pushed 1 0x40 33952; let t := pushed 5 0x41 33952; let u := pushed 1 0x40 33951
    Reachable s 0 0x170001C ∧ s.fld Reg.secStatus 0 4 = 1 ∧ s.imageAt % 64 = 0 ∧ imageLenOk s.imageLen = true ∧
      t.fld Reg.secStatus 0 4 = 5 ∧ t.imageAt % 64 ≠ 0 ∧ imageLenOk u.imageLen = false ∧ imageLenOk 67108864 = false ∧
      imageLenOk (67108864 - 32) = true ∧ bitB (BitVec.toNat (1 : BitVec 32)) 0 = true ∧
      (pushed 4 0x40 33952).fld Reg.secStatus 0 4 ≠ 1 := by decide +kernel
theorem witness_ImagesKeysAndSealedWeights_fetched : let s := pushed 2 0x40 33952
    s.alive = true ∧ s.fld Reg.secStatus 0 4 = 2 ∧ s.fld Reg.secStatus 4 4 ≠ 0xF ∧ s.stopped = false ∧ s.boot.waiting ≠ 5 ∧
      s.imageFault false image = some 2 ∧ (pushed 2 0x40 64).imageFault true image = some 1 ∧
      ({ s with fuses := { s.fuses with keysProgrammed := 2 } } : State).imageFault true image = some 4 ∧
      (s.setReg Reg.stopStatus 4).stopped = true ∧ s.askHeld = false ∧
      ({ s with fe := { s.fe with heldIde := [(0, .hostRead 0 0 0x40 64)] } } : State).askHeld = true ∧ s.ideBlocked 0 = false ∧
      (s.setReg Reg.ideRequired 1).ideBlocked 0 = true := by decide +kernel
/-- The accepted image: Config leaves the fused digest and the signature check open, so that they stand as premises here. -/
theorem witness_ImagesKeysAndSealedWeights_accepted : let s := pushed 2 0x40 33952
    padTo 32 (shake256 ((image.drop 32).take 64) 32) = padTo 32 (Config.keyDigest (imageSlot image)) →
    Config.slhVerify ((image.drop 32).take 64) (image.take 4096) (image.drop (4096 + imageBody image)) = true →
    s.imageFault true image = none := by
  intro s h1 h3
  have a : (pushed 2 0x40 33952).imageLen = 33888 + imageBody image := by decide +kernel
  have b : imageHeaderOk image = true := by decide +kernel
  have c : bitB s.fuses.keysProgrammed (imageSlot image) = true := by decide +kernel
  have d : bitB s.fuses.keyRevoked (imageSlot image) = false := by decide +kernel
  have e : ¬ imageSvn image < s.fuses.minSvn := by decide +kernel
  have h2 : padTo 32 (shake256 ((image.drop 4096).take (imageBody image)) 32) = (image.drop 96).take 32 := by decide +kernel
  simp only [State.imageFault, s, h1, h2, h3, a, b] at *
  simp [c, d, e]
theorem witness_ImagesKeysAndSealedWeights_close : let s := dev.setReg Reg.pwr 0x3FF
    Reachable s 0 0x1700028 ∧ BitVec.toNat (0xDC1 : BitVec 32) = 0xDC1 ∧ s.fusePower = true ∧
      (dev.setReg Reg.pwr 0x1FF).fusePower = false := by decide +kernel

/-- KEY_IMPORT into a slot. -/
def keyCmd (slot : Nat) : Cmd := cmd 0x88 0 (some (leBytes 1 slot ++ leBytes 1727 0))
/-- WEIGHTS_LOAD_SEALED of `n` plaintext bytes (KEY_SLOT 15) or with the key of a slot, from 0x11000 to 0x12000. -/
def loadCmd (slot n : Nat) (check : Nat := 0) : Cmd := cmd 0x87 0 (some (leBytes 8 0x11000 ++ leBytes 8 0x12000 ++ leBytes 8 n ++ leBytes 20 0 ++
  leBytes 1 slot ++ leBytes 1 check ++ leBytes 82 0))
/-- The device without a host window, its partition's log empty. -/
def keyed (c : Cmd) : State := runs c (dev.updPart 0 fun x => { x with keys := [(3, slotValue (leBytes 32 9) (leBytes 16 1))] })

theorem witness_ImagesKeysAndSealedWeights_keys : let c := keyCmd 14; let d := keyCmd 15; let e := keyCmd 16; let b := c.block.getD []
    let w := (keyed c).setFld (Reg.part 0) 13 1 1
    Runs (keyed c) 1 0x88 c ∧ num b 0 1 < 16 ∧ num b 1 7 = 0 ∧ num b 36 28 = 0 ∧ num b 1680 48 = 0 ∧
      (keyed c).hostWindow 0 = false ∧ (keyed c).sealTurn c = true ∧ Runs w 1 0x88 c ∧ w.hostWindow 0 = true ∧
      Runs (keyed d) 1 0x88 d ∧ num (d.block.getD []) 0 1 = 15 ∧ Runs (keyed e) 1 0x88 e ∧ 16 ≤ num (e.block.getD []) 0 1 := by
  decide +kernel
theorem witness_ImagesKeysAndSealedWeights_load : let c := loadCmd 15 64; let s := keyed c; let b := c.block.getD []; let x := c.loadArgs
    let cores := (s.coresOf 0).filter s.dmaServes; let a := s.accOf c (cores.headD 31) true
    Runs s 1 0x87 c ∧ num b 44 1 < 16 ∧ num b 45 1 < 2 ∧ num b 46 18 = 0 ∧ num b 96 32 = 0 ∧ s.hostWindow 0 = false ∧
      s.sealTurn c = true ∧ c.phase ≠ .running ∧ x.slot = 15 ∧ ¬(64 ≤ (s.part 0).sealed.length ∨ 64 ≤ (s.part 0).sets.length ∨
        320 ≤ (s.part 0).plog.length ∨ x.ok = false ∨ s.sealTarget a x = none) ∧ cores ≠ [] := by decide +kernel
/-- The load's second event: the chunks open in clear, and a key that the spec leaves open decides the others. -/
theorem witness_ImagesKeysAndSealedWeights_loading : let c := { loadCmd 15 64 with phase := .running }; let s := keyed c; let x := c.loadArgs
    let cores := (s.coresOf 0).filter s.dmaServes; let a := s.accOf c (cores.headD 31) true
    let v := (((cores.take x.n).foldl (fun s k => s.touch 1 k) s).unsealLoad c).updCmd 1 fun c => { c with aux := [] }
    Runs s 1 0x87 c ∧ c.phase = .running ∧ cores ≠ [] ∧
      c.missing ((List.range x.n).flatMap (fun i => s.hostRanges a (x.record i).1 (x.record i).2)) = [] ∧
      (match v.openChunks a x [] (List.range x.n) with
        | .ok ch => (v.writeDva a x.dst ch.flatten).2.isNone | .error _ => false) = true ∧ x.check = false ∧
      (loadCmd 15 64 1).loadArgs.check = true := by decide +kernel
theorem witness_ImagesKeysAndSealedWeights_refused : let c := loadCmd 4 64; let d := loadCmd 3 64; let e := loadCmd 15 0; let s := keyed c
    Runs s 1 0x87 c ∧ c.loadArgs.slot ≠ 15 ∧ s.keySlot 0 4 = none ∧ Runs (keyed d) 1 0x87 d ∧ (keyed d).keySlot 0 3 = some (leBytes 32 9) ∧
      Runs (keyed e) 1 0x87 e ∧ e.loadArgs.ok = false ∧
      (let t := (List.range 3).foldl (fun s k => s.setReg (Reg.dmaFault k) 1) (keyed (loadCmd 15 64))
       Runs t 1 0x87 (loadCmd 15 64) ∧ (t.coresOf 0).filter t.dmaServes = []) ∧
      ((keyed c).setFld (Reg.part 0) 13 1 1).hostWindow 0 = true := by decide +kernel

/-! ## Hypotheses met: SPDM and the management mailbox -/

/-- Responder 1 with an established session 5 and one not finished, 6; a chunked request and a large response under handle 2. -/
def spoken : State := { vfDev with boot := { vfDev.boot with
  sessions := [⟨1, 5, true⟩, ⟨1, 6, false⟩], inbox := [(1, { handle := 2, seq := 3, data := leBytes 4 1 })],
  large := [(1, { handle := 2, seq := 1, data := leBytes 8 7 })] } }
/-- The mailbox has an endpoint ID and its clock. -/
def sideband : State := (dev.setReg Reg.clkStatus 0x10).setReg Reg.mbxLink 0x200000

theorem witness_RespondersAnswerRequests_responders : Answers dev 0 ∧ Answers vfDev 1 ∧ Answers sideband 9 ∧ Answers spoken 1 ∧
    dev.measBlock 0 255 = none ∧ (dev.measBlock 0 5).isSome = true ∧ dev.measBlock 1 17 = none := by decide +kernel
/-- The device keeps a certificate that the host named. -/
def certified : State := { dev.setReg Reg.secStatus 0x10004 with boot := { dev.boot with cert := leBytes 4 1 } }
theorem witness_RespondersAnswerRequests_certificate : Answers certified 0 ∧ 0 < certified.chain.length := by
  refine ⟨by decide +kernel, ?_⟩
  have h : certified.fld Reg.secStatus 16 1 = 1 := by decide +kernel
  have n : certified.boot.cert.length = 4 := by decide +kernel
  rw [State.chain, if_pos h, List.length_append, List.length_append, n]
  omega
theorem witness_RespondersAnswerRequests_sessions :
    let full := { vfDev with boot := { vfDev.boot with sessions := (List.range 4).map (fun i => ⟨1, i, true⟩) } }
    Answers full 1 ∧ 4 ≤ (full.sessionsOf 1).length ∧ (spoken.sessionsOf 1).length < 4 ∧
      (spoken.sessionsOf 1).any (fun y => y.id == 5) = true ∧ (spoken.sessionsOf 1).any (fun y => y.id == 7) = false ∧
      (spoken.sessionsOf 1).any (fun y => y.id == 6 && !y.done) = true ∧ (spoken.sessionsOf 1).any (fun y => y.id == 5 && !y.done) = false ∧
      spoken.established 1 5 = true ∧ spoken.established 1 6 = false := by decide +kernel
theorem witness_RespondersAnswerRequests_chunks : let x := spoken.boot.inbox.get (fun _ => {}) 1; let y := spoken.boot.large.get (fun _ => {}) 1
    (3 = (if x.handle = 2 then x.seq else 0)) ∧ (4 ≠ 0 ∧ 4 ≠ (if x.handle = 2 then x.seq else 0)) ∧ y.data ≠ [] ∧ y.handle = 2 ∧
      y.seq = 1 ∧ y.seq ≠ 0 ∧ (List.replicate 65537 (0 : Byte)).length = 65537 := by
  refine ⟨by decide +kernel, by decide +kernel, by decide +kernel, by decide +kernel, by decide +kernel, by decide +kernel, List.length_replicate ..⟩
theorem witness_RespondersAnswerRequests_scopes : (0x1EE8 ≠ 0x1EE9) ∧ (8 ≤ 8 ∧ 8 ≠ 0xFF) ∧ (1 ≠ 0 ∧ 1 ≠ 9 ∧ 1 ≠ 7 + 1) ∧ 7 < 8 ∧ 8 = 7 + 1 ∧
    dev.fnExists 0 = true ∧ dev.alive = true ∧ ({ dev with boot := { dev.boot with eclosed := false } } : State).eclosed = false ∧
    Answers dev 0 ∧ halted.stopped = true ∧ halted.fnExists 0 = true ∧ halted.alive = true ∧ halted.fwRuns = true := by decide +kernel

/-- A sample at 105 °C and 1,200 W, and a cool one. -/
def hot : Sensors := { tj := 840, hbmT := [760], total := 12000 }
def cool : Sensors := { tj := 320, hbmT := [320], total := 100 }

theorem witness_SidebandSamplesAlertsAndMessages_samples : (dev.thermalRule hot).1 = true ∧ (dev.powerRule hot).1 = true ∧
    (dev.thermalRule cool).1 = false ∧ (dev.thermalRule cool).2 = true ∧ (dev.powerRule cool).2 = true ∧
    (dev.thermalRule { tj := 744 }).1 = false ∧ (dev.thermalRule { tj := 744 }).2 = false ∧
    dev.alive = true ∧ Reachable dev 0 Reg.mbxTherm ∧ Reachable dev 0 Reg.mbxLimit ∧ dev.fld Reg.alerts 31 1 = 0 ∧
    (let s := { dev with mgmt := { dev.mgmt with sample := hot, maxSince := some 0 } }
     (s.atTime 10000000).throttledOut = true ∧ (s.atTime 9999999).throttledOut = false) := by decide +kernel
theorem witness_SidebandSamplesAlertsAndMessages_messages : let s := sideband
    s.mailbox = true ∧ s.eid ≠ 0 ∧ s.eid = 0x20 ∧ (0x21 ≠ 0 ∧ 0x21 ≠ s.eid) ∧ (254 < 255 ∧ 255 ≤ 255) ∧
      (let t := (s.setReg Reg.alerts 1).setReg Reg.alertEnable 1; t.mailbox = true ∧ t.alertLow = true) ∧
      (s.setReg Reg.alertEnable 0).alertLow = false ∧ 7 < 8 := by decide +kernel

/-! ## The spec's worked examples -/

/-- R60: a group of 28 zero products and four others takes an accumulator of 2.0 to 1.521484375. -/
theorem test_group_closes : let a8 := ofF32 0x3E800000; let ws := ofF32 0x3FA00000
    let row := fun (c : Nat) (l : List Nat) => l.map (fun x => (elemVal c x, if c = 3 then a8 else ws))
    let a := rowGroups false 3 32 (row 3 ([0x3C, 0xA8, 0x44, 0x08] ++ List.replicate 28 0))
    let w := rowGroups false 7 32 (row 7 ([4, 1, 0xB, 7] ++ List.replicate 28 0))
    passElem 0x40000000 (rowSums a w) a w = 0x3FC2C000 := by decide +kernel

/-- Table 5 of the example that follows R115. -/
def table5 : List Byte := ((List.range 128).map (fun i : Nat =>
  if i = 0x18 ∨ i = 0x58 then (2 : Byte) else if i = 0x1C ∨ i = 0x5C then 3
  else if i = 0x14 ∨ i = 0x20 ∨ i = 0x54 ∨ i = 0x60 then 4 else 0)) ++ leBytes 128 1

theorem test_codewords : tableValid table5 = true ∧ codewords table5 = [(0x30, 2, 0), (0xB0, 2, 1), (0x38, 3, 4), (0xB8, 3, 5),
    (0x28, 4, 12), (0x40, 4, 13), (0xA8, 4, 14), (0xC0, 4, 15)] := by decide +kernel

/-- The row window of the example that follows R112. -/
def window0 : List Byte := [(3, 0x38), (7, 0x30), (12, 0xB0), (40, 0x40), (41, 0x30), (66, 0xA8), (90, 0xB8), (91, 0x30), (100, 0x28),
  (127, 0xC0)].foldl (fun (l : List Byte) (x : Nat × Byte) => l.set x.1 x.2) (List.replicate 128 0)

theorem test_block_header : checkSum window0 = 68568 ∧ (let b := compressBlock (some (5, 0, table5)) window0
    b.1 = 2 ∧ b.2.length = 32 ∧ b.2.take 24 = leBytes 8 0x00010BD8081E0905 ++ leBytes 8 0x0000030000001088 ++
      leBytes 8 0x800000100C000004) := by decide +kernel
theorem test_block_decodes : decodeCoded table5 (compressBlock (some (5, 0, table5)) window0).2 = .ok window0 := by
  have h : (match decodeCoded table5 (compressBlock (some (5, 0, table5)) window0).2 with
    | .ok x => decide (x = window0) | .error _ => false) = true := by decide +kernel
  split at h
  · next e => rw [e]; simpa using h
  · simp at h

/-- The selections of the example that follows R134, token by token; gates as FP32 codes. -/
def picks : List Assign := [⟨0, 0, 2, 0x3F400000, 0⟩, ⟨0, 1, 5, 0x3E800000, 0⟩, ⟨1, 0, 2, 0x3F200000, 0⟩, ⟨1, 1, 0, 0x3EC00000, 0⟩,
  ⟨2, 0, 4, 0x3F100000, 0⟩, ⟨2, 1, 2, 0x3EE00000, 0⟩, ⟨3, 0, 5, 0x3F600000, 0⟩, ⟨3, 1, 0, 0x3E000000, 0⟩]

theorem test_routing_arrays : let r := moeArrays 6 picks
    r.1 = ([2, 0, 3, 0, 1, 2] : List Nat).flatMap (leBytes 4) ∧ r.2.1 = ([0, 2, 2, 5, 5, 6, 8] : List Nat).flatMap (leBytes 4) ∧
      (List.range 8).map (fun i => (num r.2.2.1 (8 * i) 3, num r.2.2.1 (8 * i + 3) 1)) =
        [(1, 1), (3, 1), (0, 0), (1, 0), (2, 1), (2, 0), (0, 1), (3, 0)] ∧
      num r.2.2.2 32 8 = 5 + 2 ^ 32 * 4 ∧ num r.2.2.2 40 8 = 4 + 2 ^ 32 * 2 := by decide +kernel
/-- The FMA of the example that follows R145. -/
theorem test_fma_word : vaWord 0x04 { core := 0, mask := 2, vd := 3, va := 1, vb := 2, vc := 3 } = 0x31046204 := by decide
/-- The slots of the example that follows R168. -/
theorem test_slot_bytes : slotBytes 8 128 0x03 = 32832 ∧ slotBytes 8 128 0x57 = 17472 ∧ slotBytes 8 128 1 = 65600 ∧
    (let pl : Pool := { layers := 32, heads := 8, dim := 128, tag := 3 }
     pl.slotAt 1 0 = 1050624 ∧ pl.fits 0x57 = true ∧ pl.fits 1 = false) := by decide
/-- The partition of slices 4 to 7 of the example that follows R206. -/
theorem test_device_address : let s := (dev.setReg (Reg.part 2) 0x142).setReg (Reg.partStacks 2) 0xF0
    s.stacksOf 2 = [4, 5, 6, 7] ∧ s.dpaOf 2 0x123456780 = some 0x5048D15980 := by decide
/-- The ring of the example that follows R451. -/
theorem test_trace_ring : let t := traceOf (leBytes 12 0 ++ leBytes 1 3 ++ leBytes 1 12 ++ leBytes 1 1 ++ leBytes 49 0) 0
    t.slots = 2097024 ∧ t.pre = 1572768 := by decide
/-- The samples of the example that follows R468: the thermal level after each. -/
theorem test_thermal_levels : (([756, 760, 770, 764, 752, 740, 735, 732] : List (BitVec 16)).foldl (fun (r : List Nat × State) tj =>
    let t := r.2.takeSample { tj }
    (r.1 ++ [t.mgmt.thermal], t)) ([], dev)).1 = [0, 1, 2, 3, 3, 3, 2, 1] := by decide +kernel
/-- The sealed block of the example that follows R415. -/
theorem test_sealed_chunks : let x : LoadArgs := { src := 0, dst := 0, bytes := 200000000, setId := [], iv := [], slot := 2, check := true, expect := [] }
    x.n = 3052 ∧ x.len 3051 = 49664 ∧ (x.record 3051).1 + (x.record 3051).2 = 200211200 := by decide +kernel
/-- FIPS 202: SHAKE256 of the bytes "abc"; SP 800-185: KMAC256, its sample 4. -/
theorem test_shake256 : shake256 (asciiBytes "abc") 8 = ([0x48, 0x33, 0x66, 0x60, 0x13, 0x60, 0xA8, 0x77] : List Byte) := by decide +kernel
theorem test_kmac256 : (kmac256 ((List.range 32).map (fun i => BitVec.ofNat 8 (0x40 + i))) (leBytes 4 0x03020100) 64
    "My Tagged Application").take 8 = ([0x20, 0xC5, 0x70, 0xC3, 0x13, 0x46, 0xF7, 0x03] : List Byte) := by decide +kernel
end Sys2Proof.Tests
end

section
/-!
CHECK, the weighted byte sum of a raw block (R112): its largest value, and what a changed and an exchanged byte do to it.
-/
namespace Sys2Proof.Machine

/-- The part of CHECK that the bytes from place `k` on make up: R112's sum, by recursion on the bytes. -/
def checkFrom : Nat → List Byte → Nat
  | _, [] => 0
  | k, b :: bs => (k + 1) * b.toNat + checkFrom (k + 1) bs

theorem foldl_zipIdx_eq_checkFrom (bs : List Byte) (k a : Nat) :
    (bs.zipIdx k).foldl (fun a x => a + (x.2 + 1) * x.1.toNat) a = a + checkFrom k bs := by
  induction bs generalizing k a with
  | nil => rfl
  | cons b bs ih => rw [List.zipIdx_cons, List.foldl_cons, ih, checkFrom, Nat.add_assoc]

theorem checkSum_eq_checkFrom (bs : List Byte) : checkSum bs = checkFrom 0 bs := by
  rw [checkSum, foldl_zipIdx_eq_checkFrom, Nat.zero_add]

theorem checkFrom_eq_sum (bs : List Byte) (k : Nat) :
    checkFrom k bs = ((List.range bs.length).map (fun i => (k + i + 1) * (bs[i]?.getD 0).toNat)).sum := by
  induction bs generalizing k with
  | nil => rfl
  | cons b bs ih =>
    have later : ∀ i ∈ List.range bs.length, (k + 1 + i + 1) * (bs[i]?.getD 0).toNat =
        ((fun i => (k + i + 1) * ((b :: bs)[i]?.getD 0).toNat) ∘ Nat.succ) i := fun i _ => by
      rw [Function.comp_apply, List.getElem?_cons_succ, Nat.add_right_comm k 1 i]
      rfl
    rw [checkFrom, ih, List.length_cons, List.range_succ_eq_map, List.map_cons, List.sum_cons, List.map_map,
      List.map_congr_left later]
    rfl

theorem checkFrom_le_checkFrom_replicate (bs : List Byte) (k : Nat) :
    checkFrom k bs ≤ checkFrom k (List.replicate bs.length 255) := by
  induction bs generalizing k with
  | nil => exact Nat.le_refl _
  | cons b bs ih =>
    have hb : b.toNat ≤ (255 : Byte).toNat := Nat.le_of_lt_succ b.isLt
    exact Nat.add_le_add (Nat.mul_le_mul_left (k + 1) hb) (ih (k + 1))

theorem checkSum_replicate_255 : checkSum (List.replicate 128 255) = 2105280 := by decide +kernel

/-- One byte's change moves the sum by the byte's difference times its weight; both sides add, as naturals do not subtract. -/
theorem checkFrom_set_add (bs : List Byte) (k i : Nat) (v : Byte) (hi : i < bs.length) :
    checkFrom k (bs.set i v) + (k + i + 1) * (bs[i]?.getD 0).toNat = checkFrom k bs + (k + i + 1) * v.toNat := by
  induction bs generalizing k i with
  | nil => exact absurd hi (Nat.not_lt_zero i)
  | cons b bs ih =>
    cases i with
    | zero =>
      rw [List.set_cons_zero, List.getElem?_cons_zero, Option.getD_some, checkFrom, checkFrom, Nat.add_zero]
      omega
    | succ i =>
      have moved := ih (k + 1) i (Nat.lt_of_succ_lt_succ hi)
      rw [Nat.add_right_comm k 1 i] at moved
      rw [List.set_cons_succ, List.getElem?_cons_succ, checkFrom, checkFrom, ← Nat.add_assoc k i 1]
      omega

theorem checkSum_set_add (bs : List Byte) (i : Nat) (v : Byte) (hi : i < bs.length) :
    checkSum (bs.set i v) + (i + 1) * (bs[i]?.getD 0).toNat = checkSum bs + (i + 1) * v.toNat := by
  have moved := checkFrom_set_add bs 0 i v hi
  rwa [Nat.zero_add, ← checkSum_eq_checkFrom, ← checkSum_eq_checkFrom] at moved

/-- Two bytes with equal multiples by a nonzero factor are equal. -/
theorem byte_eq_of_mul_eq {n : Nat} {x y : Byte} (h : (n + 1) * x.toNat = (n + 1) * y.toNat) : x = y :=
  BitVec.eq_of_toNat_eq (Nat.eq_of_mul_eq_mul_left n.succ_pos h)

theorem checkSum_set_ne (bs : List Byte) (i : Nat) (v : Byte) (hi : i < bs.length) (hv : v ≠ bs[i]?.getD 0) :
    checkSum (bs.set i v) ≠ checkSum bs := by
  intro same
  have moved := checkSum_set_add bs i v hi
  rw [same] at moved
  exact hv (byte_eq_of_mul_eq (Nat.add_left_cancel moved).symm)

/-- An exchange moves CHECK by the difference of the bytes times the distance of their places. -/
theorem checkSum_swap_ne (bs : List Byte) (i j : Nat) (hij : i < j) (hj : j < bs.length)
    (hne : bs[i]?.getD 0 ≠ bs[j]?.getD 0) :
    checkSum ((bs.set i (bs[j]?.getD 0)).set j (bs[i]?.getD 0)) ≠ checkSum bs := by
  intro same
  have first := checkSum_set_add bs i (bs[j]?.getD 0) (Nat.lt_trans hij hj)
  have second := checkSum_set_add (bs.set i (bs[j]?.getD 0)) j (bs[i]?.getD 0) (by rwa [List.length_set])
  rw [List.getElem?_set_ne (Nat.ne_of_lt hij), same] at second
  obtain ⟨k, rfl⟩ := Nat.exists_eq_add_of_lt hij
  have weighted : (k + 1) * (bs[i]?.getD 0).toNat = (k + 1) * (bs[i + k + 1]?.getD 0).toNat := by
    simp only [Nat.add_mul, Nat.one_mul] at first second ⊢
    omega
  exact hne (byte_eq_of_mul_eq weighted)

/-- Settles O37: a change or an exchange moves CHECK by a nonzero multiple of the difference of two bytes. -/
theorem checkWordFindsSingleErrors : Obligations.CheckWordFindsSingleErrors := by
  intro bs len
  refine ⟨?_, ?_, checkSum_replicate_255, by decide, ?_, ?_⟩
  · rw [checkSum_eq_checkFrom, checkFrom_eq_sum, len]
    simp only [Nat.zero_add]
  · rw [← checkSum_replicate_255, ← len, checkSum_eq_checkFrom, checkSum_eq_checkFrom]
    exact checkFrom_le_checkFrom_replicate bs 0
  · exact fun i v hi => checkSum_set_ne bs i v (len ▸ hi)
  · exact fun i j hij hj => checkSum_swap_ne bs i j hij (len ▸ hj)

end Sys2Proof.Machine
end

section
/-!
The event counters of a core (R440, R443): a count read after a write of it, the counter's OVF, and what one advance leaves of a
counter alone and of a chained pair.
-/
namespace Sys2Proof.Machine

section Counters

variable (s : State) (c k : Nat)

/-! ## A counter's registers -/

theorem Reg.ctrLo_ne_ctrHi (j : Nat) : Reg.ctrLo c j ≠ Reg.ctrHi c k := by
  simp only [Reg.ctrLo, Reg.ctrHi]
  omega

theorem Reg.ctrLo_ne_of_ne {j k : Nat} (h : j ≠ k) : Reg.ctrLo c j ≠ Reg.ctrLo c k := by
  simp only [Reg.ctrLo]
  omega

theorem Reg.ctrHi_ne_of_ne {j k : Nat} (h : j ≠ k) : Reg.ctrHi c j ≠ Reg.ctrHi c k := by
  simp only [Reg.ctrHi]
  omega

theorem State.ctr_lt : s.ctr c k < 2 ^ 48 := by
  have lo : (s.reg (Reg.ctrLo c k)).toNat < 2 ^ 32 := BitVec.isLt _
  have hi : s.fld (Reg.ctrHi c k) 0 16 < 2 ^ 16 := Nat.mod_lt _ (Nat.two_pow_pos 16)
  unfold State.ctr
  omega

/-- A count read after a write of it, cut to 48 bits. -/
@[simp] theorem State.ctr_setCtr_same (v : Nat) : (s.setCtr c k v).ctr c k = v % 2 ^ 48 := by
  unfold State.ctr State.setCtr
  rw [State.reg_setFld_other _ _ _ _ (Reg.ctrLo_ne_ctrHi c k k), State.reg_setReg_same, BitVec.toNat_ofNat,
    State.fld_setFld_same _ _ _ _ _ (by decide)]
  omega

theorem State.ctr_setCtr_other {j k : Nat} (v : Nat) (h : j ≠ k) : (s.setCtr c k v).ctr c j = s.ctr c j := by
  unfold State.ctr State.setCtr
  rw [State.reg_setFld_other _ _ _ _ (Reg.ctrLo_ne_ctrHi c k j), State.reg_setReg_other _ _ (Reg.ctrLo_ne_of_ne c h),
    State.fld_setFld_other _ _ _ _ _ _ (Reg.ctrHi_ne_of_ne c h)]
  unfold State.fld
  rw [State.reg_setReg_other _ _ (Reg.ctrLo_ne_ctrHi c j k).symm]

/-- A written count leaves every OVF of the core as it is. -/
@[simp] theorem State.ovf_setCtr (j v : Nat) : (s.setCtr c k v).fld (Reg.ctrHi c j) 31 1 = s.fld (Reg.ctrHi c j) 31 1 := by
  have hi : (s.setCtr c k v).fld (Reg.ctrHi c j) 31 1 =
      (s.setReg (Reg.ctrLo c k) (BitVec.ofNat 32 v)).fld (Reg.ctrHi c j) 31 1 := by
    unfold State.setCtr
    by_cases h : j = k
    · subst h
      exact State.fld_setFld_disjoint _ _ _ _ _ _ _ (by decide) (by decide)
    · exact State.fld_setFld_other _ _ _ _ _ _ (Reg.ctrHi_ne_of_ne c h)
  rw [hi]
  unfold State.fld
  rw [State.reg_setReg_other _ _ (Reg.ctrLo_ne_ctrHi c j k).symm]

/-- A set OVF leaves every count of the core as it is. -/
@[simp] theorem State.ctr_setOvf (j : Nat) : (s.setFld (Reg.ctrHi c k) 31 1 1).ctr c j = s.ctr c j := by
  unfold State.ctr
  rw [State.reg_setFld_other _ _ _ _ (Reg.ctrLo_ne_ctrHi c k j)]
  by_cases h : j = k
  · subst h
    rw [State.fld_setFld_disjoint _ _ _ _ _ _ _ (by decide) (by decide)]
  · rw [State.fld_setFld_other _ _ _ _ _ _ (Reg.ctrHi_ne_of_ne c h)]

@[simp] theorem State.ovf_setOvf_same : (s.setFld (Reg.ctrHi c k) 31 1 1).fld (Reg.ctrHi c k) 31 1 = 1 :=
  State.fld_setFld_same _ _ _ _ _ (by decide)

theorem State.ovf_setOvf_other {j k : Nat} (h : j ≠ k) :
    (s.setFld (Reg.ctrHi c k) 31 1 1).fld (Reg.ctrHi c j) 31 1 = s.fld (Reg.ctrHi c j) 31 1 :=
  State.fld_setFld_other _ _ _ _ _ _ (Reg.ctrHi_ne_of_ne c h)

/-! ## One advance of a counter -/

variable {s c k} {n : Nat}

theorem State.ctrAdd_below (h : s.ctr c k + n < 2 ^ 48) : s.ctrAdd c k n = (s.setCtr c k (s.ctr c k + n), []) := by
  simp only [State.ctrAdd, h, if_true, Nat.mod_eq_of_lt h]

/-- A counter that no counter above chains wraps, and its OVF is set. -/
theorem State.ctrAdd_wraps_alone (h : ¬ s.ctr c k + n < 2 ^ 48) (alone : ¬ (k % 2 = 0 ∧ s.chained c (k + 1))) :
    s.ctrAdd c k n =
      ((s.setCtr c k ((s.ctr c k + n) % 2 ^ 48)).setFld (Reg.ctrHi c k) 31 1 1, [k]) := by
  simp only [State.ctrAdd, h, alone, if_false]

/-- The wrap of the lower counter of a pair counts in the upper one. -/
theorem State.ctrAdd_carries (h : ¬ s.ctr c k + n < 2 ^ 48) (pair : k % 2 = 0 ∧ s.chained c (k + 1))
    (upper : s.ctr c (k + 1) + 1 < 2 ^ 48) :
    s.ctrAdd c k n =
      ((s.setCtr c k ((s.ctr c k + n) % 2 ^ 48)).setCtr c (k + 1) (s.ctr c (k + 1) + 1), []) := by
  simp only [State.ctrAdd, h, pair, upper, Nat.mod_eq_of_lt upper, and_self, if_true, if_false]

/-- The wrap of both counters of a pair sets the OVF of the upper one. -/
theorem State.ctrAdd_wraps_pair (h : ¬ s.ctr c k + n < 2 ^ 48) (pair : k % 2 = 0 ∧ s.chained c (k + 1))
    (upper : ¬ s.ctr c (k + 1) + 1 < 2 ^ 48) :
    s.ctrAdd c k n =
      (((s.setCtr c k ((s.ctr c k + n) % 2 ^ 48)).setCtr c (k + 1) ((s.ctr c (k + 1) + 1) % 2 ^ 48)).setFld
        (Reg.ctrHi c (k + 1)) 31 1 1, [k + 1]) := by
  simp only [State.ctrAdd, h, pair, upper, and_self, if_true, if_false]

/-- A counter counts modulo 2^48, chained or not. -/
theorem State.ctr_ctrAdd_same (s : State) (c k n : Nat) : (s.ctrAdd c k n).1.ctr c k = (s.ctr c k + n) % 2 ^ 48 := by
  have ne : k ≠ k + 1 := Nat.ne_of_lt (Nat.lt_succ_self k)
  by_cases h : s.ctr c k + n < 2 ^ 48
  · simp [State.ctrAdd_below h]
  · by_cases pair : k % 2 = 0 ∧ s.chained c (k + 1)
    · by_cases upper : s.ctr c (k + 1) + 1 < 2 ^ 48
      · simp [State.ctrAdd_carries h pair upper, State.ctr_setCtr_other _ _ _ ne]
      · simp [State.ctrAdd_wraps_pair h pair upper, State.ctr_setCtr_other _ _ _ ne]
    · simp [State.ctrAdd_wraps_alone h pair]

theorem State.ovf_ctrAdd_alone (alone : ¬ (k % 2 = 0 ∧ s.chained c (k + 1))) :
    (s.ctrAdd c k n).1.fld (Reg.ctrHi c k) 31 1 =
      if 2 ^ 48 ≤ s.ctr c k + n then 1 else s.fld (Reg.ctrHi c k) 31 1 := by
  by_cases h : s.ctr c k + n < 2 ^ 48
  · rw [if_neg (Nat.not_le_of_lt h), State.ctrAdd_below h, State.ovf_setCtr]
  · rw [if_pos (Nat.le_of_not_lt h), State.ctrAdd_wraps_alone h alone, State.ovf_setOvf_same]

/-- The upper counter of a pair counts the lower one's wrap. -/
theorem State.ctr_ctrAdd_upper (pair : k % 2 = 0 ∧ s.chained c (k + 1)) :
    (s.ctrAdd c k n).1.ctr c (k + 1) =
      if s.ctr c k + n < 2 ^ 48 then s.ctr c (k + 1) else (s.ctr c (k + 1) + 1) % 2 ^ 48 := by
  have ne : k + 1 ≠ k := Nat.ne_of_gt (Nat.lt_succ_self k)
  by_cases h : s.ctr c k + n < 2 ^ 48
  · rw [if_pos h, State.ctrAdd_below h, State.ctr_setCtr_other _ _ _ ne]
  · rw [if_neg h]
    by_cases upper : s.ctr c (k + 1) + 1 < 2 ^ 48
    · rw [State.ctrAdd_carries h pair upper, State.ctr_setCtr_same]
    · simp [State.ctrAdd_wraps_pair h pair upper]

theorem State.ovf_ctrAdd_lower (pair : k % 2 = 0 ∧ s.chained c (k + 1)) :
    (s.ctrAdd c k n).1.fld (Reg.ctrHi c k) 31 1 = s.fld (Reg.ctrHi c k) 31 1 := by
  have ne : k ≠ k + 1 := Nat.ne_of_lt (Nat.lt_succ_self k)
  by_cases h : s.ctr c k + n < 2 ^ 48
  · rw [State.ctrAdd_below h, State.ovf_setCtr]
  · by_cases upper : s.ctr c (k + 1) + 1 < 2 ^ 48
    · rw [State.ctrAdd_carries h pair upper, State.ovf_setCtr, State.ovf_setCtr]
    · rw [State.ctrAdd_wraps_pair h pair upper, State.ovf_setOvf_other _ _ ne, State.ovf_setCtr, State.ovf_setCtr]

theorem State.ovf_ctrAdd_upper (pair : k % 2 = 0 ∧ s.chained c (k + 1)) :
    (s.ctrAdd c k n).1.fld (Reg.ctrHi c (k + 1)) 31 1 =
      if 2 ^ 48 ≤ s.ctr c k + n ∧ 2 ^ 48 ≤ s.ctr c (k + 1) + 1 then 1 else s.fld (Reg.ctrHi c (k + 1)) 31 1 := by
  by_cases h : s.ctr c k + n < 2 ^ 48
  · rw [if_neg (fun both => Nat.not_le_of_lt h both.1), State.ctrAdd_below h, State.ovf_setCtr]
  · by_cases upper : s.ctr c (k + 1) + 1 < 2 ^ 48
    · rw [if_neg (fun both => Nat.not_le_of_lt upper both.2), State.ctrAdd_carries h pair upper, State.ovf_setCtr,
        State.ovf_setCtr]
    · rw [if_pos ⟨Nat.le_of_not_lt h, Nat.le_of_not_lt upper⟩, State.ctrAdd_wraps_pair h pair upper, State.ovf_setOvf_same]

/-- A chained pair is one count modulo 2^96. -/
theorem State.ctr_ctrAdd_pair (pair : k % 2 = 0 ∧ s.chained c (k + 1)) (hn : n < 2 ^ 48) :
    (s.ctrAdd c k n).1.ctr c k + 2 ^ 48 * (s.ctrAdd c k n).1.ctr c (k + 1) =
      (s.ctr c k + 2 ^ 48 * s.ctr c (k + 1) + n) % 2 ^ 96 := by
  have lower := s.ctr_lt c k
  have upper := s.ctr_lt c (k + 1)
  rw [State.ctr_ctrAdd_same, State.ctr_ctrAdd_upper pair]
  split <;> omega

/-- A pair passes 2^96 - 1 where both of its counters pass 2^48 - 1. -/
theorem State.pair_wraps_iff (hn : n < 2 ^ 48) : 2 ^ 96 ≤ s.ctr c k + 2 ^ 48 * s.ctr c (k + 1) + n ↔
    2 ^ 48 ≤ s.ctr c k + n ∧ 2 ^ 48 ≤ s.ctr c (k + 1) + 1 := by
  have lower := s.ctr_lt c k
  have upper := s.ctr_lt c (k + 1)
  omega

/-! ## CHAIN -/

theorem State.ctrSelects_of_chained (h : s.chained c k = true) (ev : Nat) (ok : Nat → Bool) :
    s.ctrSelects c k ev ok = false := by
  simp [State.ctrSelects, h]

theorem cfgOk_chain_even {w : Nat} (hk : k % 2 = 0) (hw : bits w 10 1 = 1) : cfgOk k w = false := by
  simp [cfgOk, hk, hw]

theorem mem_ones {x w i : Nat} : i ∈ ones x w ↔ i < w ∧ bitB x i = true := by
  simp [ones]

/-- One selected word that is not valid rejects the whole block (R447). -/
theorem counterConfig_of_bad_word {d : Cmd} {b : List Byte} (hb : d.block = some b) (flags : num b 6 1 / 2 = 0)
    (reserved : num b 7 57 = 0) (cores : ∀ x ∈ s.coreMask d.part (num b 0 4), (s.coresOf d.part).contains x = true)
    (selected : k ∈ ones (num b 4 2) 16) (bad : cfgOk k (num b (64 + 4 * k) 4) = false) :
    counterConfig s d = .done s 0x0104 0 none := by
  have named : ¬ ((s.coreMask d.part (num b 0 4)).any fun x => !(s.coresOf d.part).contains x) = true := fun outside => by
    obtain ⟨x, hx, missing⟩ := List.any_eq_true.1 outside
    rw [cores x hx] at missing
    exact Bool.noConfusion missing
  have found : ((ones (num b 4 2) 16).any fun j => !cfgOk j (num b (64 + 4 * j) 4)) = true :=
    List.any_eq_true.2 ⟨k, selected, by rw [bad, Bool.not_false]⟩
  unfold counterConfig
  simp only [hb, Option.getD_some]
  rw [if_neg (by rintro (h | h) <;> contradiction), if_neg named, if_pos found]

end Counters

/-- Settles O13: one advance is read off the cases of its carry, and CHAIN on an even counter makes the word invalid. -/
theorem countersWrapAndChain : Obligations.CountersWrapAndChain := by
  intro s c k n hn
  refine ⟨fun free => ?_, fun chain even => ?_, State.ctrSelects_of_chained, fun even _ => cfgOk_chain_even even, ?_⟩
  · have alone : ¬ (k % 2 = 0 ∧ s.chained c (k + 1)) := by
      rintro ⟨even, chain⟩
      rcases free with unchained | odd
      · exact Bool.false_ne_true (unchained.symm.trans chain)
      · omega
    exact ⟨State.ctr_ctrAdd_same s c k n, State.ovf_ctrAdd_alone alone⟩
  · have pair : k % 2 = 0 ∧ s.chained c (k + 1) := ⟨even, chain⟩
    simp only [State.pair_wraps_iff hn]
    exact ⟨State.ctr_ctrAdd_pair pair hn, State.ovf_ctrAdd_lower pair, State.ovf_ctrAdd_upper pair⟩
  · intro id d b runs hb flags reserved cores hk even selected chain
    have body := counterConfig_of_bad_word hb flags reserved cores (mem_ones.2 ⟨hk, selected⟩) (cfgOk_chain_even even chain)
    exact congrArg Host.Outcome.next (runCmd_done runs (by decide) body rfl)

end Sys2Proof.Machine
end
